-- ==== Sys2Proof/Word.lean ====
section
/-! DEFINITION. The bit-vector types of the block (00_scope.md R10, R11): every value is unsigned. -/

namespace Sys2Proof

/-- One byte: a wire field, a Frame register, a buffer cell (00_scope.md R10). -/
abbrev Byte := BitVec 8

/-- 16 bits: the checksum, the CRC accumulator, the `imm` operand (00_scope.md R10, 30_encoding.md R71). -/
abbrev Half := BitVec 16

/-- 32 bits: ring indices, the two tallies, the `data` field of a response (00_scope.md R10, 30_encoding.md R74). -/
abbrev Word := BitVec 32

/-- One 32-bit word on a command port (30_encoding.md R70). -/
abbrev Beat := BitVec 32

/-- A response word `rw[39:0]` (30_encoding.md R74). -/
abbrev RespWord := BitVec 40

end Sys2Proof
end

