-- ==== Sys2Proof/Config.lean ====
section
/-! DEFINITION. What is fixed at construction (00_scope.md R7 to R9), the ports, and the free values: constants
without a body, of which nothing can be proved, standing for what the spec leaves open. -/

namespace Sys2Proof

/-- The two command ports (30_encoding.md R70): `p` is the producer's, `c` the consumer's. -/
inductive Port where
  | p
  | c
  deriving DecidableEq, Repr

/-- The port that is not this one. -/
def Port.other : Port → Port
  | .p => .c
  | .c => .p

/-- The framing profiles (00_scope.md R8). -/
inductive Profile where
  | trailer
  | header
  | pkt
  deriving DecidableEq, Repr

/-- The length encodings (00_scope.md R8). -/
inductive LenMode where
  | raw
  | ascii
  deriving DecidableEq, Repr

/-- The parameters an integrator asks for, legal or not (00_scope.md R8). -/
structure Params where
  cap : Nat
  vcap : Nat
  localSys : Byte
  localDev : Byte
  profile : Profile
  lenMode : LenMode
  deriving DecidableEq, Repr

/-- The configuration of one instance together with the evidence that it is legal (00_scope.md R8, R9): the ring
holds `N = 2^k` bytes, `VCAP` is 1 to 255, and the ASCII length exists only under PKT. -/
structure Cfg where
  k : Nat
  vcap : Nat
  localSys : Byte
  localDev : Byte
  profile : Profile
  lenMode : LenMode
  k_le : k ≤ 31
  vcap_pos : 1 ≤ vcap
  vcap_le : vcap ≤ 255
  ascii_pkt : lenMode = .ascii → profile = .pkt
  deriving DecidableEq, Repr

/-- `N`, the ring capacity in bytes (00_scope.md R8). -/
def Cfg.cap (c : Cfg) : Nat := 2 ^ c.k

/-- `N` as a 32-bit number (10_state.md R30, `RB_CAP`). -/
def Cfg.capWord (c : Cfg) : Word := BitVec.ofNat 32 c.cap

/-- The parameters an instance was constructed with. -/
def Cfg.params (c : Cfg) : Params :=
  { cap := c.cap, vcap := c.vcap, localSys := c.localSys, localDev := c.localDev,
    profile := c.profile, lenMode := c.lenMode }

/-- Why construction fails (00_scope.md R9, 60_exceptions.md R226). DESIGN CHOICE (log 22): the spec has one
ConstructionError without a code, and the three causes are the model's names. -/
inductive ConstructionError where
  /-- the ring capacity is not `2^K` with `0 <= K <= 31` -/
  | ringCapacity
  /-- the value buffer's capacity is 0 or above 255 -/
  | valueCapacity
  /-- `LEN_MODE = ASCII` with a profile other than PKT -/
  | asciiWithoutPkt
  deriving DecidableEq, Repr

namespace Config

/-- `MARK`, the frame start sentinel (00_scope.md R8). -/
def mark : Byte := 0x7E

/-- `MAX_FRAME`, the protocol's largest frame (00_scope.md R8). -/
def maxFrame : Nat := 255

/-- `MAX_VALUE`, the protocol's cap on Value and the default `VCAP` (00_scope.md R8). -/
def maxValue : Nat := 246

/-- `MIN_FRAME`, the smallest checksum-bearing frame (00_scope.md R8). -/
def minFrame : Nat := 9

/-- The configuration `State.reset` is constructed with. DESIGN CHOICE (log 7): `VCAP` is the spec's default
(00_scope.md R8); the other parameters have no default and take the values of 95_test_vectors.md's opening. -/
def resetCfg : Cfg :=
  { k := 4, vcap := maxValue, localSys := 0x01, localDev := 0x02, profile := .trailer, lenMode := .raw,
    k_le := by decide, vcap_pos := by decide, vcap_le := by decide, ascii_pkt := by decide }

/-- FREE VALUE (log 5): what Frame register `i` holds after construction number `epoch` (10_state.md R37, R38: any
8-bit value, fixed until written). -/
opaque frameAtReset (epoch i : Nat) : Byte

/-- FREE VALUE (log 5): what value-buffer cell `a` reads as after construction number `epoch` until something writes
it (10_state.md R37, R38). -/
opaque valAtReset (epoch a : Nat) : Byte

/-- FREE VALUE (log 6): what ring cell `a` reads as until a PUSH writes it (10_state.md R21: never observable). -/
opaque rbAtReset (epoch a : Nat) : Byte

/-- FREE VALUE (log 2): which port goes first at free arbitration number `n` (20_memory.md R58: either may). -/
opaque arbiterPicksP (n : Nat) : Bool

end Config

end Sys2Proof
end

