-- ==== Sys2Proof/Syntax.lean ====
section
/-! DEFINITION. The commands: one constructor per row of spec/opcode_table.json (30_encoding.md R79). Operands are the
values the formats of R72 carry; a field that must be zero is no operand. -/

namespace Sys2Proof

/-- The 27 commands (30_encoding.md R79). -/
inductive Instr where
  /-- append one byte (40_ring_buffer.md R101) -/
  | push (b : Byte)
  /-- remove and return the oldest byte (R102) -/
  | pop
  /-- return the oldest byte (R103) -/
  | peek
  /-- append a run of bytes (R104) -/
  | pushall (payload : List Byte)
  /-- remove up to `maxCount` bytes (R105) -/
  | popall (maxCount : Half)
  /-- used-count (R106) -/
  | used
  /-- free-count (R107) -/
  | free
  /-- is the ring empty (R108) -/
  | empty
  /-- is the ring full (R109) -/
  | full
  /-- discard everything buffered (R110) -/
  | flush
  /-- load the CRC's initial value (41_checksum.md R122) -/
  | crcinit
  /-- load a running CRC state (R123) -/
  | crcseed (seed : Half)
  /-- fold one byte into the accumulator (R124) -/
  | crcacc (b : Byte)
  /-- read the accumulator (R125) -/
  | crcrd
  /-- checksum of a byte run (R126) -/
  | crc16 (payload : List Byte)
  /-- feed one byte to the parser (42_frame_parser.md R131) -/
  | step (b : Byte)
  /-- verify the Frame (43_link_session.md R173) -/
  | verify
  /-- pack the Frame (R176) -/
  | pack (calcFlag : Byte)
  /-- read one byte of the wire image (R180) -/
  | txb (idx : Half)
  /-- clear the four session counters (R181) -/
  | clrcnt
  /-- decode at most one byte (44_decode_adapter.md R190) -/
  | decode1
  /-- drain the ring, handing valid frames to the handler (R192) -/
  | process
  /-- read a Frame register (45_register_access.md R200) -/
  | rdf (idx : Byte)
  /-- write a Frame register (R201) -/
  | wrf (idx : Byte) (value : Byte)
  /-- read a value-buffer byte (R202) -/
  | rdv (idx : Half)
  /-- write a value-buffer byte (R203) -/
  | wrv (value : Byte) (idx : Half)
  /-- read a session, ring or configuration register (R204) -/
  | rds (idx : Byte)
  deriving DecidableEq, Repr

/-- The payload bytes that follow the header beat: only the V-format commands have any (30_encoding.md R72, R77). -/
def Instr.payload : Instr → List Byte
  | .pushall ps => ps
  | .crc16 ps => ps
  | .push _ => []
  | .pop => []
  | .peek => []
  | .popall _ => []
  | .used => []
  | .free => []
  | .empty => []
  | .full => []
  | .flush => []
  | .crcinit => []
  | .crcseed _ => []
  | .crcacc _ => []
  | .crcrd => []
  | .step _ => []
  | .verify => []
  | .pack _ => []
  | .txb _ => []
  | .clrcnt => []
  | .decode1 => []
  | .process => []
  | .rdf _ => []
  | .wrf _ _ => []
  | .rdv _ => []
  | .wrv _ _ => []
  | .rds _ => []

end Sys2Proof
end

