-- ==== Sys2Proof/WellFormed.lean ====
section
/-! DEFINITION. Which commands an encoding exists for: every operand but the payload is bounded by its type; the
payload's length must fit the 16-bit `imm` (30_encoding.md R77, 92_eei_decisions.md D36). -/

namespace Sys2Proof

/-- The largest number of payload beats a V-format header can announce (30_encoding.md R77: 0 to 65535). -/
def maxPayload : Nat := 65535

/-- A command that has an encoding (30_encoding.md R77). -/
def Instr.wf (i : Instr) : Bool := decide (i.payload.length ≤ maxPayload)

end Sys2Proof
end

