-- ==== Sys2Proof/Decode.lean ====
section
/-! DEFINITION. Decoding command beats (30_encoding.md R70 to R82), total, rejecting by name, and the encoder of R83
written from the same opcode map. -/

namespace Sys2Proof

/-- `zext_32` of a byte (00_scope.md R12). -/
def Byte.word (b : Byte) : Word := b.setWidth 32

/-- `zext_32` of a 16-bit value (00_scope.md R12). -/
def Half.word (h : Half) : Word := h.setWidth 32

/-- Why a header beat is no command; the number is the ILLEGAL reason (30_encoding.md R81). -/
inductive DecodeError where
  /-- reason 1: `op` is not in the table -/
  | unknownOpcode
  /-- reason 2: a field that must be 0 is not -/
  | mustBeZero
  deriving DecidableEq, Repr

/-- `cw[31:24]` (30_encoding.md R71). -/
def opOf (cw : Beat) : Byte := cw.extractLsb' 24 8

/-- `cw[23:16]` (30_encoding.md R71). -/
def aOf (cw : Beat) : Byte := cw.extractLsb' 16 8

/-- `cw[15:0]` (30_encoding.md R71). -/
def immOf (cw : Beat) : Half := cw.extractLsb' 0 16

/-- The byte a payload beat carries: bits 7:0; bits 31:8 are ignored (30_encoding.md R77). -/
def payloadByte (b : Beat) : Byte := b.extractLsb' 0 8

/-- How many payload beats follow this header beat, known from it alone, legal or not (30_encoding.md R77). -/
def payloadBeats (cw : Beat) : Nat :=
  if opOf cw = 0x13 ∨ opOf cw = 0x24 then (immOf cw).toNat else 0

/-- Format Z: `a` and `imm` must be 0 (30_encoding.md R72). -/
def fmtZ (a : Byte) (imm : Half) (i : Instr) : Except DecodeError Instr :=
  if a = 0 ∧ imm = 0 then .ok i else .error .mustBeZero

/-- Format A: `imm` must be 0 (30_encoding.md R72). -/
def fmtA (a : Byte) (imm : Half) (mk : Byte → Instr) : Except DecodeError Instr :=
  if imm = 0 then .ok (mk a) else .error .mustBeZero

/-- Format I: `a` must be 0 (30_encoding.md R72). -/
def fmtI (a : Byte) (imm : Half) (mk : Half → Instr) : Except DecodeError Instr :=
  if a = 0 then .ok (mk imm) else .error .mustBeZero

/-- Format V: `a` must be 0; `imm` counts the payload (30_encoding.md R72). -/
def fmtV (a : Byte) (payload : List Byte) (mk : List Byte → Instr) : Except DecodeError Instr :=
  if a = 0 then .ok (mk payload) else .error .mustBeZero

/-- WRF's AI format: `imm[15:8]` must be 0 (30_encoding.md R72, 45_register_access.md R201). -/
def fmtWrf (a : Byte) (imm : Half) : Except DecodeError Instr :=
  if imm.extractLsb' 8 8 = 0 then .ok (.wrf a (imm.extractLsb' 0 8)) else .error .mustBeZero

/-- The opcode map (30_encoding.md R79), on the header beat's fields and the payload bytes that followed it. -/
def decodeFields (op a : Byte) (imm : Half) (payload : List Byte) : Except DecodeError Instr :=
  match op.toNat with
  | 0x10 => fmtA a imm .push
  | 0x11 => fmtZ a imm .pop
  | 0x12 => fmtZ a imm .peek
  | 0x13 => fmtV a payload .pushall
  | 0x14 => fmtI a imm .popall
  | 0x15 => fmtZ a imm .used
  | 0x16 => fmtZ a imm .free
  | 0x17 => fmtZ a imm .empty
  | 0x18 => fmtZ a imm .full
  | 0x19 => fmtZ a imm .flush
  | 0x20 => fmtZ a imm .crcinit
  | 0x21 => fmtI a imm .crcseed
  | 0x22 => fmtA a imm .crcacc
  | 0x23 => fmtZ a imm .crcrd
  | 0x24 => fmtV a payload .crc16
  | 0x30 => fmtA a imm .step
  | 0x40 => fmtZ a imm .verify
  | 0x41 => fmtA a imm .pack
  | 0x42 => fmtI a imm .txb
  | 0x43 => fmtZ a imm .clrcnt
  | 0x50 => fmtZ a imm .decode1
  | 0x51 => fmtZ a imm .process
  | 0x60 => fmtA a imm .rdf
  | 0x61 => fmtWrf a imm
  | 0x62 => fmtI a imm .rdv
  | 0x63 => .ok (.wrv a imm)
  | 0x64 => fmtA a imm .rds
  | _ => .error .unknownOpcode

/-- Decode a header beat and the payload bytes that followed it (30_encoding.md R79, R82). -/
def decodeHeader (cw : Beat) (payload : List Byte) : Except DecodeError Instr :=
  decodeFields (opOf cw) (aOf cw) (immOf cw) payload

/-- What a port's beats begin with. -/
inductive Decoded where
  /-- no whole command yet: no header beat, or payload beats still to come -/
  | short
  /-- a command, and the beats after it -/
  | ok (i : Instr) (rest : List Beat)
  /-- a refused command, its payload dropped, and the beats after it (30_encoding.md R77) -/
  | illegal (e : DecodeError) (rest : List Beat)
  deriving DecidableEq, Repr

/-- Decode the first command of a port's beats (30_encoding.md R77, R79, R82). -/
def decode : List Beat → Decoded
  | [] => .short
  | cw :: bs =>
    if bs.length < payloadBeats cw then .short
    else
      match decodeHeader cw ((bs.take (payloadBeats cw)).map payloadByte) with
      | .ok i => .ok i (bs.drop (payloadBeats cw))
      | .error e => .illegal e (bs.drop (payloadBeats cw))

/-- `cw = (op << 24) | (a << 16) | imm` (30_encoding.md R83). -/
def beatOf (op a : Byte) (imm : Half) : Beat := (op ++ a) ++ imm

/-- The header beat of a command (30_encoding.md R72, R79, R83). -/
def headerOf : Instr → Beat
  | .push b => beatOf 0x10 b 0
  | .pop => beatOf 0x11 0 0
  | .peek => beatOf 0x12 0 0
  | .pushall ps => beatOf 0x13 0 (BitVec.ofNat 16 ps.length)
  | .popall n => beatOf 0x14 0 n
  | .used => beatOf 0x15 0 0
  | .free => beatOf 0x16 0 0
  | .empty => beatOf 0x17 0 0
  | .full => beatOf 0x18 0 0
  | .flush => beatOf 0x19 0 0
  | .crcinit => beatOf 0x20 0 0
  | .crcseed s => beatOf 0x21 0 s
  | .crcacc b => beatOf 0x22 b 0
  | .crcrd => beatOf 0x23 0 0
  | .crc16 ps => beatOf 0x24 0 (BitVec.ofNat 16 ps.length)
  | .step b => beatOf 0x30 b 0
  | .verify => beatOf 0x40 0 0
  | .pack f => beatOf 0x41 f 0
  | .txb i => beatOf 0x42 0 i
  | .clrcnt => beatOf 0x43 0 0
  | .decode1 => beatOf 0x50 0 0
  | .process => beatOf 0x51 0 0
  | .rdf i => beatOf 0x60 i 0
  | .wrf i v => beatOf 0x61 i (v.setWidth 16)
  | .rdv i => beatOf 0x62 0 i
  | .wrv v i => beatOf 0x63 v i
  | .rds i => beatOf 0x64 i 0

/-- The beats of a command: its header beat, then one beat a payload byte (30_encoding.md R77, R83). -/
def encode (i : Instr) : List Beat := headerOf i :: i.payload.map (fun b => b.setWidth 32)

/-- The first `k` beats of a number whose bit 0 is the least significant bit of the first beat. -/
def beatsOfNat : Nat → Nat → List Beat
  | 0, _ => []
  | k + 1, w => BitVec.ofNat 32 w :: beatsOfNat k (w >>> 32)

/-- The beats of the instruction whose bits are `w`: its header beat, then as many payload beats as the header
announces; every bit above `nbits` is 0. -/
def tableBeats (nbits w : Nat) : List Beat :=
  let v := w % 2 ^ nbits
  beatsOfNat (1 + payloadBeats (BitVec.ofNat 32 v)) v

/-- The command this decoder reads from an instruction whose bits are `w`, bit 0 the least significant bit of the
first beat. -/
def decodeTableWord (nbits w : Nat) : Option Instr :=
  match decode (tableBeats nbits w) with
  | .ok i _ => some i
  | .short => none
  | .illegal _ _ => none

end Sys2Proof
end

