-- ==== Sys2Proof/Machine/State.lean ====
section
/-! DEFINITION. The whole state of one block instance as plain data (10_state.md R20), the ports, the reasons a step can
stop, and the state after construction (10_state.md R37, 70_reset_and_hazards.md R250). -/

namespace Sys2Proof.Machine

/-- Byte storage as address and byte pairs, addresses strictly rising (`Memory.wf`). A cell nothing has written since
construction has no entry and no value of its own (10_state.md R21, R37): what reading one gives is a free value
(`State.rbRead`, `State.valRead`; log 5, log 6). -/
abbrev Memory := List Host.Cell

/-- `PSTATE` (10_state.md R31): the thirteen codes a rule can write. -/
inductive PState where
  | awaitMark
  | awaitCalc
  | awaitSeq
  | awaitSys
  | awaitDev
  | awaitTag
  | awaitLen
  | awaitValue
  | awaitChecksumLow
  | awaitChecksumHigh
  | awaitResv0
  | awaitResv1
  | awaitResv2
  deriving DecidableEq, Repr

/-- The twelve Frame registers `F[0..11]` (10_state.md R24). -/
structure Frame where
  mark : Byte
  calcFlag : Byte
  seq : Byte
  sys : Byte
  dev : Byte
  tag : Byte
  len : Byte
  cklo : Byte
  ckhi : Byte
  resv0 : Byte
  resv1 : Byte
  resv2 : Byte
  deriving DecidableEq, Repr

/-- Response statuses (30_encoding.md R75). -/
inductive Status where
  | ok
  | none
  | full
  | incomplete
  | complete
  | valid
  | error
  | illegal
  deriving DecidableEq, Repr

/-- A response: status and 32-bit datum (30_encoding.md R74). -/
structure Resp where
  st : Status
  data : Word
  deriving DecidableEq, Repr

/-- What a HANDLE event carries: the Frame registers and `VAL[0 .. F.LEN-1]` at the moment of the event
(44_decode_adapter.md R194). -/
structure Snapshot where
  regs : Frame
  value : List Byte
  deriving DecidableEq, Repr

/-- A bulk command between two of its micro-operations, with its private loop position (10_state.md R36,
20_memory.md R58). -/
inductive Running where
  /-- PUSHALL after `n` bytes pushed (40_ring_buffer.md R104) -/
  | pushall (payload : List Byte) (n : Nat)
  /-- POPALL with the bytes popped so far, oldest first (40_ring_buffer.md R105) -/
  | popall (maxCount : Half) (out : List Byte)
  /-- CRC16 after `n` bytes folded into its private accumulator (41_checksum.md R126) -/
  | crc16 (payload : List Byte) (n : Nat) (acc : Half)
  /-- PROCESS between two bytes (44_decode_adapter.md R192) -/
  | process
  deriving DecidableEq, Repr

/-- One command port (30_encoding.md R70): the beats sent and not yet taken, the bulk command in execution, and the
response words given, oldest first (log 1). -/
structure PortState where
  inbox : List Beat
  busy : Option Running
  out : List Resp
  deriving DecidableEq, Repr

/-- The machine. The first group is the spec's whole architectural state (10_state.md R20), `cfg` its configuration
(00_scope.md R7); the ports and `handled` are its inputs and outputs; the last group is the model's own (INVENTORY.md,
State). -/
structure State where
  cfg : Cfg
  /-- `RB` -/
  rb : Memory
  /-- `HEAD` -/
  head : Word
  /-- `TAIL` -/
  tail : Word
  /-- `CRC` -/
  crc : Half
  /-- `F[0..11]` -/
  frame : Frame
  /-- `VAL` -/
  val : Memory
  /-- `LAST_SEQ_RX` -/
  lastSeqRx : Byte
  /-- `LAST_SEQ_TX` -/
  lastSeqTx : Byte
  /-- `ERROR_COUNT` -/
  errorCount : Word
  /-- `VALID_COUNT` -/
  validCount : Word
  /-- `PSTATE` -/
  pstate : PState
  /-- `BYTE_CNT` -/
  byteCnt : Byte
  /-- port P -/
  portP : PortState
  /-- port C -/
  portC : PortState
  /-- the HANDLE events emitted on port H, oldest first (44_decode_adapter.md R194) -/
  handled : List Snapshot
  /-- the port whose command is being executed (log 8) -/
  cur : Port
  /-- the arbitration choices still to come, the next one first (log 2) -/
  grants : List Port
  /-- how many arbitration choices have been taken as free values (log 2) -/
  draws : Nat
  /-- how many times the instance was constructed again (log 5) -/
  epoch : Nat
  /-- the outside world asks for construction again (log 9) -/
  resetReq : Bool
  deriving DecidableEq, Repr

/-- What stops the machine. -/
inductive Fault where
  /-- FLUSH while a push-path command is in flight or sent on port P (70_reset_and_hazards.md R254: undefined; U2:
  `fault`). Raised by FLUSH, and by `step` while a FLUSH sent waits to run (log 4). Safe: the machine stops where the
  hardware goes on. -/
  | flushNotQuiescent
  /-- Beats sent on a port whose previous command has not responded, or two commands at once (20_memory.md R60,
  70_reset_and_hazards.md R253, R258; U1, U9: `fault`). Raised by `step` only. Safe: the machine stops where the hardware
  goes on (log 11). -/
  | sentTooEarly
  /-- Reset applied while a port has a command in flight, which 70_reset_and_hazards.md R251 forbids. Raised by `step`
  only. Safe: the machine stops where the hardware goes on (log 9). -/
  | resetWhileBusy
  deriving DecidableEq, Repr

/-- What has no meaning in the model. -/
inductive Refusal where
  /-- A command without a meaning yet. Raised by no arm of `exec`: all 27 have theirs. Safe. -/
  | notModelled (mnemonic : String)
  deriving DecidableEq, Repr

/-- What a meaning answers. -/
abbrev Result := Host.Outcome State Fault Refusal

/-- The Frame registers after construction number `epoch`: unspecified, free values (10_state.md R37, R38; log 5). -/
def Frame.atReset (epoch : Nat) : Frame :=
  { mark := Config.frameAtReset epoch 0, calcFlag := Config.frameAtReset epoch 1,
    seq := Config.frameAtReset epoch 2, sys := Config.frameAtReset epoch 3,
    dev := Config.frameAtReset epoch 4, tag := Config.frameAtReset epoch 5,
    len := Config.frameAtReset epoch 6, cklo := Config.frameAtReset epoch 7,
    ckhi := Config.frameAtReset epoch 8, resv0 := Config.frameAtReset epoch 9,
    resv1 := Config.frameAtReset epoch 10, resv2 := Config.frameAtReset epoch 11 }

/-- A port with nothing sent, nothing in flight and nothing answered (70_reset_and_hazards.md R250: both ports idle). -/
def PortState.idle : PortState := { inbox := [], busy := none, out := [] }

/-- The state construction leaves (10_state.md R37, 70_reset_and_hazards.md R250) for a legal configuration. -/
def State.constructed (cfg : Cfg) (epoch : Nat) : State :=
  { cfg := cfg
    rb := [], head := 0, tail := 0
    crc := 0xFFFF
    frame := Frame.atReset epoch, val := []
    lastSeqRx := 0, lastSeqTx := 0, errorCount := 0, validCount := 0
    pstate := .awaitMark, byteCnt := 0
    portP := PortState.idle, portC := PortState.idle, handled := []
    cur := .c, grants := [], draws := 0, epoch := epoch, resetReq := false }

/-- The machine right after reset (10_state.md R37), with the configuration of log 7. -/
def State.reset : State := State.constructed Config.resetCfg 0

end Sys2Proof.Machine
end

