-- ==== Sys2Proof/Machine/Flags.lean ====
section
/-! DEFINITION. The derived conditions. The block stores no flag (10_state.md R34): empty, full, used-count and
free-count are functions of `HEAD`, `TAIL` and `N`, recomputed by each command (40_ring_buffer.md R100). -/

namespace Sys2Proof.Machine

/-- `used() = TAIL -_32 HEAD` (40_ring_buffer.md R100). -/
def State.usedCount (s : State) : Word := s.tail - s.head

/-- `N - used()` (40_ring_buffer.md R107). -/
def State.freeCount (s : State) : Word := s.cfg.capWord - s.usedCount

/-- Empty exactly when `HEAD == TAIL` (10_state.md R23, 40_ring_buffer.md R108). -/
def State.isEmpty (s : State) : Bool := s.head == s.tail

/-- Full exactly when `used() == N` (10_state.md R23, 40_ring_buffer.md R109). -/
def State.isFull (s : State) : Bool := s.usedCount == s.cfg.capWord

/-- `phys(x) = x & mask`, `mask = N - 1` (40_ring_buffer.md R100), as a cell number of `RB`. -/
def State.phys (s : State) (x : Word) : Nat := (x &&& (s.cfg.capWord - 1)).toNat

/-- The guard of every rule that walks `VAL[0 .. F.LEN-1]` (10_state.md R28): `F.LEN <= VCAP`. -/
def State.lenFits (s : State) : Bool := decide (s.frame.len.toNat ≤ s.cfg.vcap)

/-- A 0/1 answer (40_ring_buffer.md R108, R109). -/
def boolWord (b : Bool) : Word := if b then 1 else 0

end Sys2Proof.Machine
end

