-- ==== Sys2Proof/Machine/Operands.lean ====
section
/-! DEFINITION. The operand forms: Frame register numbers (10_state.md R24), session register numbers (10_state.md R30),
the codes of statuses, causes, reasons and parser states, and the ASCII digit function (42_frame_parser.md R150). -/

namespace Sys2Proof.Machine

/-- The Frame registers by name (10_state.md R24). -/
inductive FReg where
  | mark
  | calcFlag
  | seq
  | sys
  | dev
  | tag
  | len
  | cklo
  | ckhi
  | resv0
  | resv1
  | resv2
  deriving DecidableEq, Repr

/-- The Frame register with index `a`, if `a <= 11` (10_state.md R24). -/
def fregOf (a : Byte) : Option FReg :=
  match a.toNat with
  | 0 => some .mark
  | 1 => some .calcFlag
  | 2 => some .seq
  | 3 => some .sys
  | 4 => some .dev
  | 5 => some .tag
  | 6 => some .len
  | 7 => some .cklo
  | 8 => some .ckhi
  | 9 => some .resv0
  | 10 => some .resv1
  | 11 => some .resv2
  | _ => none

/-- `F[r]` (00_scope.md R13). -/
def Frame.get (f : Frame) : FReg → Byte
  | .mark => f.mark
  | .calcFlag => f.calcFlag
  | .seq => f.seq
  | .sys => f.sys
  | .dev => f.dev
  | .tag => f.tag
  | .len => f.len
  | .cklo => f.cklo
  | .ckhi => f.ckhi
  | .resv0 => f.resv0
  | .resv1 => f.resv1
  | .resv2 => f.resv2

/-- `F[r] <- v` (00_scope.md R13): no register is hardwired, none aliases another (10_state.md R24). -/
def Frame.set (f : Frame) (r : FReg) (v : Byte) : Frame :=
  match r with
  | .mark => { f with mark := v }
  | .calcFlag => { f with calcFlag := v }
  | .seq => { f with seq := v }
  | .sys => { f with sys := v }
  | .dev => { f with dev := v }
  | .tag => { f with tag := v }
  | .len => { f with len := v }
  | .cklo => { f with cklo := v }
  | .ckhi => { f with ckhi := v }
  | .resv0 => { f with resv0 := v }
  | .resv1 => { f with resv1 := v }
  | .resv2 => { f with resv2 := v }

/-- The 16-bit checksum `{F.CKHI, F.CKLO}` (10_state.md R25). -/
def Frame.checksum (f : Frame) : Half := f.ckhi ++ f.cklo

/-- The session, ring and configuration registers by name (10_state.md R30). -/
inductive SReg where
  | localSys
  | localDev
  | lastSeqRx
  | lastSeqTx
  | errorCount
  | validCount
  | pstate
  | byteCnt
  | rbCap
  | vcap
  | profile
  | lenMode
  | rbHead
  | rbTail
  deriving DecidableEq, Repr

/-- The session register with index `a`, if `a <= 13` (10_state.md R30). -/
def sregOf (a : Byte) : Option SReg :=
  match a.toNat with
  | 0 => some .localSys
  | 1 => some .localDev
  | 2 => some .lastSeqRx
  | 3 => some .lastSeqTx
  | 4 => some .errorCount
  | 5 => some .validCount
  | 6 => some .pstate
  | 7 => some .byteCnt
  | 8 => some .rbCap
  | 9 => some .vcap
  | 10 => some .profile
  | 11 => some .lenMode
  | 12 => some .rbHead
  | 13 => some .rbTail
  | _ => none

/-- `PSTATE` as its code (10_state.md R31). -/
def PState.code : PState → Word
  | .awaitMark => 0
  | .awaitCalc => 1
  | .awaitSeq => 2
  | .awaitSys => 3
  | .awaitDev => 4
  | .awaitTag => 5
  | .awaitLen => 6
  | .awaitValue => 7
  | .awaitChecksumLow => 8
  | .awaitChecksumHigh => 9
  | .awaitResv0 => 10
  | .awaitResv1 => 11
  | .awaitResv2 => 12

/-- `PROFILE` as a number (00_scope.md R8). -/
def profileCode : Profile → Word
  | .trailer => 0
  | .header => 1
  | .pkt => 2

/-- `LEN_MODE` as a number (00_scope.md R8). -/
def lenModeCode : LenMode → Word
  | .raw => 0
  | .ascii => 1

/-- `zext_32(S[r])` (10_state.md R30, 45_register_access.md R204). -/
def State.sget (s : State) : SReg → Word
  | .localSys => s.cfg.localSys.word
  | .localDev => s.cfg.localDev.word
  | .lastSeqRx => s.lastSeqRx.word
  | .lastSeqTx => s.lastSeqTx.word
  | .errorCount => s.errorCount
  | .validCount => s.validCount
  | .pstate => s.pstate.code
  | .byteCnt => s.byteCnt.word
  | .rbCap => s.cfg.capWord
  | .vcap => BitVec.ofNat 32 s.cfg.vcap
  | .profile => profileCode s.cfg.profile
  | .lenMode => lenModeCode s.cfg.lenMode
  | .rbHead => s.head
  | .rbTail => s.tail

/-- Status codes (30_encoding.md R75). -/
def Status.code : Status → Byte
  | .ok => 0x00
  | .none => 0x01
  | .full => 0x02
  | .incomplete => 0x03
  | .complete => 0x04
  | .valid => 0x05
  | .error => 0x06
  | .illegal => 0x0F

/-- The response word `rw[39:0]`: `st` above `data` (30_encoding.md R74). -/
def Resp.rw (r : Resp) : RespWord := r.st.code ++ r.data

/-- Why a frame failed (30_encoding.md R76, 60_exceptions.md R220). -/
inductive Cause where
  | frameOverflow
  | checksumMismatch
  | invalidAsciiDigit
  deriving DecidableEq, Repr

/-- Cause codes (30_encoding.md R76). -/
def Cause.code : Cause → Word
  | .frameOverflow => 1
  | .checksumMismatch => 2
  | .invalidAsciiDigit => 3

/-- Why a command is refused, in the order of test (30_encoding.md R81). -/
inductive Reason where
  | unknownOpcode
  | mustBeZero
  | wrongPort
  | profileLacksIt
  | lenAboveVcap
  | indexOutOfRange
  | lenWriteWhileCollecting
  deriving DecidableEq, Repr

/-- ILLEGAL reason numbers (30_encoding.md R81). -/
def Reason.code : Reason → Word
  | .unknownOpcode => 1
  | .mustBeZero => 2
  | .wrongPort => 3
  | .profileLacksIt => 4
  | .lenAboveVcap => 5
  | .indexOutOfRange => 6
  | .lenWriteWhileCollecting => 7

/-- The reason of a header beat that does not decode (30_encoding.md R81). -/
def reasonOf : DecodeError → Reason
  | .unknownOpcode => .unknownOpcode
  | .mustBeZero => .mustBeZero

/-- `hexval(b)` (42_frame_parser.md R150): the nibble an ASCII hexadecimal digit stands for; `none` is invalid. -/
def hexval (b : Byte) : Option Byte :=
  if 0x30 ≤ b.toNat ∧ b.toNat ≤ 0x39 then some (b - 0x30)
  else if 0x41 ≤ b.toNat ∧ b.toNat ≤ 0x46 then some (b - 0x41 + 10)
  else if 0x61 ≤ b.toNat ∧ b.toNat ≤ 0x66 then some (b - 0x61 + 10)
  else none

end Sys2Proof.Machine
end

