-- ==== Sys2Proof/Machine/Ops.lean ====
section
/-! DEFINITION. The shared operations over storage, registers and ports (00_scope.md R13), and the block's error
procedures: the refusal ILLEGAL (30_encoding.md R81) and `parse_fail` (42_frame_parser.md R149). There is nothing to
return from after either: the next command runs from the state they leave (60_exceptions.md R234). -/

namespace Sys2Proof.Machine

/-! ### Storage -/

/-- The byte written to cell `a`, or `none` if nothing has written it since construction. -/
def Memory.get : Memory → Nat → Option Byte
  | [], _ => none
  | (x, v) :: m, a => if x = a then some v else Memory.get m a

/-- Write byte `b` to cell `a`, keeping the addresses strictly rising. -/
def Memory.set : Memory → Nat → Byte → Memory
  | [], a, b => [(a, b)]
  | (x, v) :: m, a, b =>
    if a < x then (a, b) :: (x, v) :: m
    else if a = x then (a, b) :: m
    else (x, v) :: Memory.set m a b

/-- The canonical form: addresses strictly rising. An unlisted cell has no value of its own, so no entry can equal what
an unlisted cell reads as. -/
abbrev Memory.wf (m : Memory) : Prop := List.Pairwise (fun x y => x.1 < y.1) m

/-- `MemRead(RB, a, 1)` (00_scope.md R13); a cell no PUSH has written gives a free value (10_state.md R21; log 6). -/
def State.rbRead (s : State) (a : Nat) : Byte := (s.rb.get a).getD (Config.rbAtReset s.epoch a)

/-- `MemRead(VAL, a, 1)` (00_scope.md R13); an unwritten cell gives a free value (10_state.md R38; log 5). -/
def State.valRead (s : State) (a : Nat) : Byte := (s.val.get a).getD (Config.valAtReset s.epoch a)

/-- `MemWrite(VAL, a, 1, b)` (00_scope.md R13). -/
def State.valWrite (s : State) (a : Nat) (b : Byte) : State := { s with val := s.val.set a b }

/-- `VAL[0 .. n-1]` (10_state.md R27). -/
def State.valueBytes (s : State) (n : Nat) : List Byte := (List.range n).map s.valRead

/-- `F[r] <- v` (00_scope.md R13). -/
def State.setF (s : State) (r : FReg) (v : Byte) : State := { s with frame := s.frame.set r v }

/-- `PSTATE <- q` (00_scope.md R13). -/
def State.goto (s : State) (q : PState) : State := { s with pstate := q }

/-- `BYTE_CNT <- n` (00_scope.md R13). -/
def State.setByteCnt (s : State) (n : Byte) : State := { s with byteCnt := n }

/-- `CRC <- v` (00_scope.md R13). -/
def State.setCrc (s : State) (v : Half) : State := { s with crc := v }

/-! ### Ports -/

/-- The port's state. -/
def State.port (s : State) : Port → PortState
  | .p => s.portP
  | .c => s.portC

/-- Replace the port's state. -/
def State.setPort (s : State) (q : Port) (x : PortState) : State :=
  { s with portP := if q = .p then x else s.portP, portC := if q = .c then x else s.portC }

/-- The bulk command in execution on the current port. -/
def State.running (s : State) : Option Running := (s.port s.cur).busy

/-- A bulk command stays in execution on the current port (20_memory.md R58), or none is any more. -/
def State.setRunning (s : State) (r : Option Running) : State :=
  s.setPort s.cur { s.port s.cur with busy := r }

/-- Response words on the current port, in order (30_encoding.md R74, R78). -/
def State.respondAll (s : State) (rs : List Resp) : State :=
  s.setPort s.cur { s.port s.cur with out := (s.port s.cur).out ++ rs }

/-- `respond(st, data)` (00_scope.md R13, 30_encoding.md R74). -/
def State.respond (s : State) (st : Status) (data : Word) : State := s.respondAll [{ st := st, data := data }]

/-- `raise ILLEGAL(reason)`: the response and no other change (30_encoding.md R81, 60_exceptions.md R227). -/
def State.illegal (s : State) (r : Reason) : State := s.respond .illegal r.code

/-- A command legal only on port P (30_encoding.md R80; ILLEGAL reason 3 elsewhere). -/
def State.onlyP (s : State) (k : State → State) : State :=
  match s.cur with
  | .p => k s
  | .c => s.illegal .wrongPort

/-- A command legal only on port C (30_encoding.md R80; ILLEGAL reason 3 elsewhere). -/
def State.onlyC (s : State) (k : State → State) : State :=
  match s.cur with
  | .p => s.illegal .wrongPort
  | .c => k s

/-- Append one HANDLE event on port H (00_scope.md R13, 44_decode_adapter.md R194). -/
def State.emitHandle (s : State) (x : Snapshot) : State := { s with handled := s.handled ++ [x] }

/-- `snapshot()`: `F[0..11]` and `VAL[0 .. F.LEN-1]` (44_decode_adapter.md R194). It is taken of frames that verified,
which have `F.LEN <= VCAP` (10_state.md R28). -/
def State.snapshot (s : State) : Snapshot := { regs := s.frame, value := s.valueBytes s.frame.len.toNat }

/-! ### The ring -/

/-- The accepting body of PUSH: first the data, then the index (40_ring_buffer.md R101). -/
def State.pushByte (s : State) (b : Byte) : State :=
  { s with rb := s.rb.set (s.phys s.tail) b, tail := s.tail + 1 }

/-- `HEAD <- HEAD +_32 1` (40_ring_buffer.md R102). -/
def State.advanceHead (s : State) : State := { s with head := s.head + 1 }

/-- `HEAD <- 0; TAIL <- 0` (40_ring_buffer.md R110). -/
def State.clearRing (s : State) : State := { s with head := 0, tail := 0 }

/-- The body of POP: nothing on an empty ring, else the oldest byte, read before `HEAD` advances
(40_ring_buffer.md R102). -/
def State.popByte (s : State) : Option (Byte × State) :=
  if s.isEmpty then none else some (s.rbRead (s.phys s.head), s.advanceHead)

/-! ### Errors and construction -/

/-- What `step(b)` returns (42_frame_parser.md R130). -/
inductive ParseResult where
  | incomplete
  | complete
  | error (c : Cause)
  deriving DecidableEq, Repr

/-- What a failed frame leaves: one error counted, the parser back in AwaitMark (42_frame_parser.md R149). -/
def State.abandonFrame (s : State) : State :=
  { s with errorCount := s.errorCount + 1, byteCnt := 0, pstate := .awaitMark }

/-- `parse_fail(cause)`, the common failure procedure (42_frame_parser.md R149). -/
def State.parseFail (s : State) (c : Cause) : State × ParseResult := (s.abandonFrame, .error c)

/-- Construction's check of the parameters (00_scope.md R9): a legal configuration, or no instance. DESIGN CHOICE
(log 22): the spec has one ConstructionError without a code; the model names which constraint fails, and where several
do, the first of the ring's capacity, the value buffer's, and ASCII without PKT. -/
def checkParams (q : Params) : Except ConstructionError Cfg :=
  if hk : q.cap = 2 ^ Nat.log2 q.cap ∧ Nat.log2 q.cap ≤ 31 then
    if hv : 1 ≤ q.vcap ∧ q.vcap ≤ 255 then
      if ha : q.lenMode = .ascii → q.profile = .pkt then
        .ok { k := Nat.log2 q.cap, vcap := q.vcap, localSys := q.localSys, localDev := q.localDev,
              profile := q.profile, lenMode := q.lenMode,
              k_le := hk.2, vcap_pos := hv.1, vcap_le := hv.2, ascii_pkt := ha }
      else .error .asciiWithoutPkt
    else .error .valueCapacity
  else .error .ringCapacity

/-- Construction (00_scope.md R9, 70_reset_and_hazards.md R250): an instance, or ConstructionError. DESIGN CHOICE
(log 21): every instance starts at construction number 0, so two instances start from the same free values; the spec
leaves them unspecified in each (10_state.md R37; 60_exceptions.md R244: instances share nothing). -/
def construct (q : Params) : Except ConstructionError State :=
  match checkParams q with
  | .ok cfg => .ok (State.constructed cfg 0)
  | .error e => .error e

/-- Construction applied again with the same parameters (70_reset_and_hazards.md R251): all state of the block is
discarded and both ports are idle; what the block has already answered is no state of the block (log 9). -/
def State.rebuild (s : State) : State :=
  { State.constructed s.cfg (s.epoch + 1) with
    portP := { PortState.idle with out := s.portP.out }, portC := { PortState.idle with out := s.portC.out },
    handled := s.handled, cur := s.cur, grants := s.grants, draws := s.draws }

end Sys2Proof.Machine
end

