-- ==== Sys2Proof/Machine/Access.lean ====
section
/-! DEFINITION. Register and buffer access (45_register_access.md R200 to R204). -/

namespace Sys2Proof.Machine

/-- RDF (45_register_access.md R200). -/
def execRdf (idx : Byte) (s : State) : Result :=
  .next (s.onlyC fun s =>
    match fregOf idx with
    | none => s.illegal .indexOutOfRange
    | some r => s.respond .ok (s.frame.get r).word)

/-- WRF (45_register_access.md R201): `F.LEN` may not be written while a value is being collected (reason 7). -/
def execWrf (idx value : Byte) (s : State) : Result :=
  .next (s.onlyC fun s =>
    match fregOf idx with
    | none => s.illegal .indexOutOfRange
    | some r =>
      if r = .len ∧ s.pstate = .awaitValue then s.illegal .lenWriteWhileCollecting
      else (s.setF r value).respond .ok 0)

/-- RDV (45_register_access.md R202). -/
def execRdv (idx : Half) (s : State) : Result :=
  .next (s.onlyC fun s =>
    if idx.toNat < s.cfg.vcap then s.respond .ok (s.valRead idx.toNat).word
    else s.illegal .indexOutOfRange)

/-- WRV (45_register_access.md R203). -/
def execWrv (value : Byte) (idx : Half) (s : State) : Result :=
  .next (s.onlyC fun s =>
    if idx.toNat < s.cfg.vcap then (s.valWrite idx.toNat value).respond .ok 0
    else s.illegal .indexOutOfRange)

/-- RDS (45_register_access.md R204), legal on both ports. -/
def execRds (idx : Byte) (s : State) : Result :=
  .next (match sregOf idx with
    | none => s.illegal .indexOutOfRange
    | some r => s.respond .ok (s.sget r))

end Sys2Proof.Machine
end

