-- ==== Sys2Proof/Machine/Parser.lean ====
section
/-! DEFINITION. The framing FSM: `step(b)` (42_frame_parser.md R130 to R149) and the command STEP (R131). -/

namespace Sys2Proof.Machine

/-- The state after a Mark (42_frame_parser.md R132, R133). -/
def afterMark : Profile → PState
  | .trailer => .awaitCalc
  | .header => .awaitChecksumLow
  | .pkt => .awaitResv0

/-- Record a field and go on (42_frame_parser.md R135 to R139, R146, R148). -/
def State.record (s : State) (r : FReg) (b : Byte) (next : PState) : State × ParseResult :=
  ((s.setF r b).goto next, .incomplete)

/-- Where the frame goes when its value field is over: to the trailing checksum, or it is complete
(42_frame_parser.md R142, R145). -/
def State.afterValue (s : State) : State × ParseResult :=
  match s.cfg.profile with
  | .trailer => (s.goto .awaitChecksumLow, .incomplete)
  | .header => (s.goto .awaitMark, .complete)
  | .pkt => (s.goto .awaitMark, .complete)

/-- `after_len()` (42_frame_parser.md R142). -/
def State.afterLen (s : State) : State × ParseResult :=
  if s.frame.len = 0 then s.afterValue else (s.goto .awaitValue, .incomplete)

/-- `F.LEN <- b; BYTE_CNT <- 0; after_len()` (42_frame_parser.md R140, R141). -/
def State.recordLen (s : State) (b : Byte) : State × ParseResult := ((s.setF .len b).setByteCnt 0).afterLen

/-- The AwaitLen arm (42_frame_parser.md R140, R141). -/
def State.parseLen (s : State) (b : Byte) : State × ParseResult :=
  match s.cfg.lenMode with
  | .raw => s.recordLen b
  | .ascii =>
    match hexval b with
    | none => s.parseFail .invalidAsciiDigit
    | some d => s.recordLen d

/-- The AwaitValue arm (42_frame_parser.md R143 to R145). -/
def State.parseValue (s : State) (b : Byte) : State × ParseResult :=
  if s.lenFits then
    if s.byteCnt + 1 = s.frame.len then ((s.valWrite s.byteCnt.toNat b).setByteCnt 0).afterValue
    else ((s.valWrite s.byteCnt.toNat b).setByteCnt (s.byteCnt + 1), .incomplete)
  else s.parseFail .frameOverflow

/-- The AwaitChecksumHigh arm (42_frame_parser.md R147); under PKT the state is never held (10_state.md R31; log 12). -/
def State.parseChecksumHigh (s : State) (b : Byte) : State × ParseResult :=
  match s.cfg.profile with
  | .trailer => ((s.setF .ckhi b).goto .awaitMark, .complete)
  | .header => s.record .ckhi b .awaitCalc
  | .pkt => s.record .ckhi b .awaitCalc

/-- `step(b)` (42_frame_parser.md R130): one arm per parser state. -/
def State.parse (s : State) (b : Byte) : State × ParseResult :=
  match s.pstate with
  | .awaitMark => if b = Config.mark then s.record .mark b (afterMark s.cfg.profile) else (s, .incomplete)
  | .awaitCalc => s.record .calcFlag b .awaitSeq
  | .awaitSeq => s.record .seq b .awaitSys
  | .awaitSys => s.record .sys b .awaitDev
  | .awaitDev => s.record .dev b .awaitTag
  | .awaitTag => s.record .tag b .awaitLen
  | .awaitLen => s.parseLen b
  | .awaitValue => s.parseValue b
  | .awaitChecksumLow => s.record .cklo b .awaitChecksumHigh
  | .awaitChecksumHigh => s.parseChecksumHigh b
  | .awaitResv0 => s.record .resv0 b .awaitResv1
  | .awaitResv1 => s.record .resv1 b .awaitResv2
  | .awaitResv2 => s.record .resv2 b .awaitSeq

/-- STEP (42_frame_parser.md R131): feed one byte; it never verifies. -/
def execStep (b : Byte) (s : State) : Result :=
  .next (s.onlyC fun s =>
    match s.parse b with
    | (t, .incomplete) => t.respond .incomplete 0
    | (t, .complete) => t.respond .complete 0
    | (t, .error c) => t.respond .error c.code)

end Sys2Proof.Machine
end

