-- ==== Sys2Proof/Machine/Checksum.lean ====
section
/-! DEFINITION. CRC-16/Modbus and its commands (41_checksum.md R120 to R126). -/

namespace Sys2Proof.Machine

/-- One shift of the reflected CRC (41_checksum.md R120). -/
def crcShift (s : Half) : Half := if s.getLsbD 0 then (s >>> 1) ^^^ 0xA001 else s >>> 1

/-- `n` shifts. -/
def crcShifts : Nat → Half → Half
  | 0, s => s
  | n + 1, s => crcShifts n (crcShift s)

/-- `crc_upd(s, b)` (41_checksum.md R120): the byte enters the low half, then eight shifts. -/
def crcUpd (s : Half) (b : Byte) : Half := crcShifts 8 (s ^^^ b.setWidth 16)

/-- `crc_acc(s, m)` (41_checksum.md R121). -/
def crcAcc (s : Half) (m : List Byte) : Half := m.foldl crcUpd s

/-- `crc16(m)` (41_checksum.md R121). -/
def crc16 (m : List Byte) : Half := crcAcc 0xFFFF m

/-- CRCINIT (41_checksum.md R122). -/
def execCrcinit (s : State) : Result :=
  .next (s.onlyC fun s => (s.setCrc 0xFFFF).respond .ok 0)

/-- CRCSEED (41_checksum.md R123). -/
def execCrcseed (seed : Half) (s : State) : Result :=
  .next (s.onlyC fun s => (s.setCrc seed).respond .ok 0)

/-- CRCACC (41_checksum.md R124): the new value is returned. -/
def execCrcacc (b : Byte) (s : State) : Result :=
  .next (s.onlyC fun s => (s.setCrc (crcUpd s.crc b)).respond .ok (crcUpd s.crc b).word)

/-- CRCRD (41_checksum.md R125). -/
def execCrcrd (s : State) : Result := .next (s.onlyC fun s => s.respond .ok s.crc.word)

/-- Where CRC16 stands: bytes folded so far and its private accumulator (41_checksum.md R126). -/
def State.crc16Position (s : State) : Nat × Half :=
  match s.running with
  | some (.crc16 _ n acc) => (n, acc)
  | _ => (0, 0xFFFF)

/-- CRC16, one atomic part (41_checksum.md R126, 20_memory.md R58): fold the next payload byte, or answer. -/
def execCrc16 (payload : List Byte) (s : State) : Result :=
  .next (s.onlyC fun s =>
    match payload[s.crc16Position.1]? with
    | some b => s.setRunning (some (.crc16 payload (s.crc16Position.1 + 1) (crcUpd s.crc16Position.2 b)))
    | none => (s.setRunning none).respond .ok s.crc16Position.2.word)

end Sys2Proof.Machine
end

