-- ==== Sys2Proof/Machine/Session.lean ====
section
/-! DEFINITION. The link session: `verify()`, VERIFY, PACK, TXB, CLRCNT (43_link_session.md R170 to R183) and the wire
image (30_encoding.md R90). -/

namespace Sys2Proof.Machine

/-- `span()` (43_link_session.md R170), defined when `F.LEN <= VCAP`; every rule that walks it first checks that
(10_state.md R28). -/
def State.span (s : State) : List Byte :=
  [s.frame.calcFlag, s.frame.seq, s.frame.sys, s.frame.dev, s.frame.tag, s.frame.len] ++
    s.valueBytes s.frame.len.toNat

/-- `expected()` (43_link_session.md R171): the CRC of the span, or the placeholder `{F.LEN, F.TAG}`. -/
def State.expected (s : State) : Half :=
  if s.frame.calcFlag = 0 then s.frame.len ++ s.frame.tag else crc16 s.span

/-- What `verify()` returns unless it refuses (43_link_session.md R172). -/
inductive Verdict where
  | valid
  | mismatch
  deriving DecidableEq, Repr

/-- The bookkeeping of a match (43_link_session.md R172). -/
def State.countValid (s : State) : State := { s with validCount := s.validCount + 1, lastSeqRx := s.frame.seq }

/-- The bookkeeping of a mismatch (43_link_session.md R172). -/
def State.countError (s : State) : State := { s with errorCount := s.errorCount + 1 }

/-- Does the Frame match (43_link_session.md R172)? Under PKT it always does (R182). -/
def State.matched (s : State) : Bool :=
  match s.cfg.profile with
  | .trailer => s.expected == s.frame.checksum
  | .header => s.expected == s.frame.checksum
  | .pkt => true

/-- `verify()` behind its guard: the comparison and its bookkeeping (43_link_session.md R172). -/
def State.judge (s : State) : State × Verdict :=
  if s.matched then (s.countValid, .valid) else (s.countError, .mismatch)

/-- `verify()` (43_link_session.md R172), or `none` where it raises ILLEGAL(5), which changes no state: `F.LEN > VCAP`
under TRAILER and HEADER. -/
def State.verify (s : State) : Option (State × Verdict) :=
  if s.cfg.profile = .pkt ∨ s.lenFits then some s.judge else none

/-- `verify()` on a frame the parser has just completed, as DECODE1 and PROCESS run it: there it cannot refuse
(44_decode_adapter.md R190). DESIGN CHOICE (log 13): where its guard trips all the same, after a WRF to `F.LEN`, the frame
is a mismatch, the one result of R190 that 10_state.md R28 allows. -/
def State.verifyCompleted (s : State) : State × Verdict :=
  match s.verify with
  | some r => r
  | none => (s.countError, .mismatch)

/-- VERIFY (43_link_session.md R173). -/
def execVerify (s : State) : Result :=
  .next (s.onlyC fun s =>
    match s.verify with
    | none => s.illegal .lenAboveVcap
    | some (t, .valid) => t.respond .valid 0
    | some (t, .mismatch) => t.respond .error Cause.checksumMismatch.code)

/-- PACK and TXB do not exist under PKT (43_link_session.md R183; ILLEGAL reason 4), and need `F.LEN <= VCAP`
(43_link_session.md R176, R180; ILLEGAL reason 5). -/
def State.transmitGuard (s : State) (k : State → State) : State :=
  if s.cfg.profile = .pkt then s.illegal .profileLacksIt
  else if s.lenFits then k s
  else s.illegal .lenAboveVcap

/-- PACK's writes before the checksum: Mark, Calc, sequence (pre-increment, R177), local identity
(43_link_session.md R176). -/
def State.packHeader (s : State) (calcFlag : Byte) : State :=
  { s with
    lastSeqTx := s.lastSeqTx + 1
    frame := { s.frame with mark := Config.mark, calcFlag := calcFlag, seq := s.lastSeqTx + 1,
                            sys := s.cfg.localSys, dev := s.cfg.localDev } }

/-- `F.CKLO <- c[7:0]; F.CKHI <- c[15:8]` (43_link_session.md R176). -/
def State.setChecksum (s : State) (c : Half) : State :=
  (s.setF .cklo (c.extractLsb' 0 8)).setF .ckhi (c.extractLsb' 8 8)

/-- What PACK does to the Frame and the sequence counter (43_link_session.md R176). -/
def State.packed (s : State) (calcFlag : Byte) : State :=
  (s.packHeader calcFlag).setChecksum (s.packHeader calcFlag).expected

/-- `9 + F.LEN`, the total wire length (30_encoding.md R86, R87). -/
def State.wireLength (s : State) : Nat := 9 + s.frame.len.toNat

/-- PACK (43_link_session.md R176); the answered length saturates at 255 (R178). -/
def execPack (calcFlag : Byte) (s : State) : Result :=
  .next (s.onlyC fun s => s.transmitGuard fun s =>
    (s.packed calcFlag).respond .ok (BitVec.ofNat 32 (min s.wireLength Config.maxFrame)))

/-- `Wire_TRAILER(i)` (30_encoding.md R90). -/
def State.wireTrailer (s : State) (i : Nat) : Byte :=
  match i with
  | 0 => s.frame.mark
  | 1 => s.frame.calcFlag
  | 2 => s.frame.seq
  | 3 => s.frame.sys
  | 4 => s.frame.dev
  | 5 => s.frame.tag
  | 6 => s.frame.len
  | j + 7 =>
    if j < s.frame.len.toNat then s.valRead j
    else if j = s.frame.len.toNat then s.frame.cklo
    else s.frame.ckhi

/-- `Wire_HEADER(i)` (30_encoding.md R90). -/
def State.wireHeader (s : State) (i : Nat) : Byte :=
  match i with
  | 0 => s.frame.mark
  | 1 => s.frame.cklo
  | 2 => s.frame.ckhi
  | 3 => s.frame.calcFlag
  | 4 => s.frame.seq
  | 5 => s.frame.sys
  | 6 => s.frame.dev
  | 7 => s.frame.tag
  | 8 => s.frame.len
  | j + 9 => s.valRead j

/-- `Wire(i)` of a checksummed profile (30_encoding.md R90); PKT has none, and TXB refuses it before this is read. -/
def State.wire (s : State) (i : Nat) : Byte :=
  match s.cfg.profile with
  | .trailer => s.wireTrailer i
  | .header => s.wireHeader i
  | .pkt => s.wireHeader i

/-- TXB (43_link_session.md R180). -/
def execTxb (idx : Half) (s : State) : Result :=
  .next (s.onlyC fun s => s.transmitGuard fun s =>
    if idx.toNat < s.wireLength then s.respond .ok (s.wire idx.toNat).word
    else s.illegal .indexOutOfRange)

/-- All four counters to zero (43_link_session.md R181). -/
def State.clearCounters (s : State) : State :=
  { s with lastSeqRx := 0, lastSeqTx := 0, errorCount := 0, validCount := 0 }

/-- CLRCNT (43_link_session.md R181). -/
def execClrcnt (s : State) : Result :=
  .next (s.onlyC fun s => s.clearCounters.respond .ok 0)

end Sys2Proof.Machine
end

