-- ==== Sys2Proof/Machine/Adapter.lean ====
section
/-! DEFINITION. The Decode Adapter: DECODE1 and PROCESS (44_decode_adapter.md R190 to R196). -/

namespace Sys2Proof.Machine

/-- DECODE1 (44_decode_adapter.md R190). -/
def execDecode1 (s : State) : Result :=
  .next (s.onlyC fun s =>
    match s.popByte with
    | none => s.respond .none 0
    | some (b, t) =>
      match t.parse b with
      | (u, .incomplete) => u.respond .incomplete 0
      | (u, .error c) => u.respond .error c.code
      | (u, .complete) =>
        match u.verifyCompleted with
        | (v, .valid) => v.respond .valid 0
        | (v, .mismatch) => v.respond .error Cause.checksumMismatch.code)

/-- PROCESS, one atomic part (44_decode_adapter.md R192, 20_memory.md R58): one byte, or the answer when the ring is
empty. Only a frame that completed and verified reaches the handler (R195). -/
def execProcess (s : State) : Result :=
  .next (s.onlyC fun s =>
    match s.popByte with
    | none => (s.setRunning none).respond .ok 0
    | some (b, t) =>
      match t.parse b with
      | (u, .incomplete) => u.setRunning (some .process)
      | (u, .error _) => u.setRunning (some .process)
      | (u, .complete) =>
        match u.verifyCompleted with
        | (v, .valid) => (v.emitHandle v.snapshot).setRunning (some .process)
        | (v, .mismatch) => v.setRunning (some .process))

end Sys2Proof.Machine
end

