-- ==== Sys2Proof/Machine/Ring.lean ====
section
/-! DEFINITION. The Ring Buffer commands (40_ring_buffer.md R101 to R110). -/

namespace Sys2Proof.Machine

/-- PUSH (40_ring_buffer.md R101). -/
def execPush (b : Byte) (s : State) : Result :=
  .next (s.onlyP fun s => if s.isFull then s.respond .full 0 else (s.pushByte b).respond .ok 0)

/-- POP (40_ring_buffer.md R102). -/
def execPop (s : State) : Result :=
  .next (s.onlyC fun s =>
    match s.popByte with
    | none => s.respond .none 0
    | some (b, t) => t.respond .ok b.word)

/-- PEEK (40_ring_buffer.md R103). -/
def execPeek (s : State) : Result :=
  .next (s.onlyC fun s =>
    match s.popByte with
    | none => s.respond .none 0
    | some (b, _) => s.respond .ok b.word)

/-- How many bytes the PUSHALL in execution has pushed (40_ring_buffer.md R104). -/
def State.pushallPosition (s : State) : Nat :=
  match s.running with
  | some (.pushall _ n) => n
  | _ => 0

/-- The end of PUSHALL: it answers how many bytes it pushed (40_ring_buffer.md R104). -/
def State.pushallEnd (s : State) (n : Nat) : State := (s.setRunning none).respond .ok (BitVec.ofNat 32 n)

/-- PUSHALL, one atomic part (40_ring_buffer.md R104, 20_memory.md R58): push the next payload byte, or answer at the
first byte that finds the ring full or when none is left. -/
def execPushall (payload : List Byte) (s : State) : Result :=
  .next (s.onlyP fun s =>
    match payload[s.pushallPosition]? with
    | none => s.pushallEnd s.pushallPosition
    | some b =>
      if s.isFull then s.pushallEnd s.pushallPosition
      else (s.pushByte b).setRunning (some (.pushall payload (s.pushallPosition + 1))))

/-- The bytes the POPALL in execution has popped (40_ring_buffer.md R105). -/
def State.popallOut (s : State) : List Byte :=
  match s.running with
  | some (.popall _ out) => out
  | _ => []

/-- POPALL's response words: the count, then the bytes, oldest first (30_encoding.md R78). -/
def popallWords (out : List Byte) : List Resp :=
  { st := .ok, data := BitVec.ofNat 32 out.length } :: out.map (fun b => { st := .ok, data := b.word })

/-- The end of POPALL (40_ring_buffer.md R105, 30_encoding.md R78). -/
def State.popallEnd (s : State) (out : List Byte) : State := (s.setRunning none).respondAll (popallWords out)

/-- POPALL, one atomic part (40_ring_buffer.md R105, 20_memory.md R58): pop the next byte, or answer when `maxCount`
bytes are out or the ring is empty. -/
def execPopall (maxCount : Half) (s : State) : Result :=
  .next (s.onlyC fun s =>
    if maxCount.toNat ≤ s.popallOut.length then s.popallEnd s.popallOut
    else
      match s.popByte with
      | none => s.popallEnd s.popallOut
      | some (b, t) => t.setRunning (some (.popall maxCount (s.popallOut ++ [b]))))

/-- USED (40_ring_buffer.md R106), legal on both ports. -/
def execUsed (s : State) : Result := .next (s.respond .ok s.usedCount)

/-- FREE (40_ring_buffer.md R107), legal on both ports. -/
def execFree (s : State) : Result := .next (s.respond .ok s.freeCount)

/-- EMPTY (40_ring_buffer.md R108), legal on both ports. -/
def execEmpty (s : State) : Result := .next (s.respond .ok (boolWord s.isEmpty))

/-- FULL, the command (40_ring_buffer.md R109), legal on both ports. -/
def execFull (s : State) : Result := .next (s.respond .ok (boolWord s.isFull))

/-- Is this header beat a push-path command, PUSH or PUSHALL (70_reset_and_hazards.md R254)? -/
def isPushPath (cw : Beat) : Bool :=
  match decodeHeader cw [] with
  | .ok (.push _) => true
  | .ok (.pushall _) => true
  | _ => false

/-- Do these beats, after `skip` payload beats, hold a push-path command? -/
def pushPathIn : Nat → List Beat → Bool
  | _, [] => false
  | k + 1, _ :: bs => pushPathIn k bs
  | 0, cw :: bs => if isPushPath cw then true else pushPathIn (payloadBeats cw) bs

/-- The premise of FLUSH (70_reset_and_hazards.md R254) at one moment: no PUSH or PUSHALL is in flight on port P and none
has been sent there. It must hold from the moment FLUSH is sent until it responds: `State.flushExposed` says so of the
steps while FLUSH waits on port C. DESIGN CHOICE (log 4): the moments are those at which a step begins. -/
def State.producerQuiet (s : State) : Bool :=
  match s.portP.busy with
  | some (.pushall _ _) => false
  | _ => !pushPathIn 0 s.portP.inbox

/-- FLUSH (40_ring_buffer.md R110). Without the premise the spec calls the result undefined and a model faults
(70_reset_and_hazards.md R254; log 4). -/
def execFlush (s : State) : Result :=
  match s.cur with
  | .p => .next (s.illegal .wrongPort)
  | .c =>
    if s.producerQuiet then .next (s.clearRing.respond .ok 0)
    else .fault .flushNotQuiescent

end Sys2Proof.Machine
end

