-- ==== Sys2Proof/Machine/Dispatch.lean ====
section
/-! DEFINITION. One arm per command. -/

namespace Sys2Proof.Machine

def exec (i : Instr) (s : State) : Host.Outcome State Fault Refusal :=
  match i with
  | .push b => Sys2Proof.Machine.execPush b s
  | .pop => Sys2Proof.Machine.execPop s
  | .peek => Sys2Proof.Machine.execPeek s
  | .pushall payload => Sys2Proof.Machine.execPushall payload s
  | .popall maxCount => Sys2Proof.Machine.execPopall maxCount s
  | .used => Sys2Proof.Machine.execUsed s
  | .free => Sys2Proof.Machine.execFree s
  | .empty => Sys2Proof.Machine.execEmpty s
  | .full => Sys2Proof.Machine.execFull s
  | .flush => Sys2Proof.Machine.execFlush s
  | .crcinit => Sys2Proof.Machine.execCrcinit s
  | .crcseed seed => Sys2Proof.Machine.execCrcseed seed s
  | .crcacc b => Sys2Proof.Machine.execCrcacc b s
  | .crcrd => Sys2Proof.Machine.execCrcrd s
  | .crc16 payload => Sys2Proof.Machine.execCrc16 payload s
  | .step b => Sys2Proof.Machine.execStep b s
  | .verify => Sys2Proof.Machine.execVerify s
  | .pack f => Sys2Proof.Machine.execPack f s
  | .txb idx => Sys2Proof.Machine.execTxb idx s
  | .clrcnt => Sys2Proof.Machine.execClrcnt s
  | .decode1 => Sys2Proof.Machine.execDecode1 s
  | .process => Sys2Proof.Machine.execProcess s
  | .rdf idx => Sys2Proof.Machine.execRdf idx s
  | .wrf idx value => Sys2Proof.Machine.execWrf idx value s
  | .rdv idx => Sys2Proof.Machine.execRdv idx s
  | .wrv value idx => Sys2Proof.Machine.execWrv value idx s
  | .rds idx => Sys2Proof.Machine.execRds idx s

end Sys2Proof.Machine
end

