-- ==== Sys2Proof/Machine/Ports.lean ====
section
/-! DEFINITION. Arbitration between the ports (20_memory.md R58) and taking a command from a port
(30_encoding.md R70, R77). -/

namespace Sys2Proof.Machine

/-- The command a running bulk command is (20_memory.md R58: its next atomic part is the same command's). -/
def Running.instr : Running → Instr
  | .pushall payload _ => .pushall payload
  | .popall maxCount _ => .popall maxCount
  | .crc16 payload _ _ => .crc16 payload
  | .process => .process

/-- Has the port something to do: a bulk command in execution, or a whole command sent (20_memory.md R58)? -/
def PortState.ready (x : PortState) : Bool :=
  match x.busy with
  | some _ => true
  | none =>
    match decode x.inbox with
    | .short => false
    | .ok _ _ => true
    | .illegal _ _ => true

/-- Has the port no command in flight: none in execution, and no beat sent and not taken (70_reset_and_hazards.md R251)? -/
def PortState.free (x : PortState) : Bool := x.busy.isNone && x.inbox.isEmpty

/-- Is no command in flight on either port (70_reset_and_hazards.md R251)? -/
def State.idle (s : State) : Bool := s.portP.free && s.portC.free

/-- Has the port's agent sent beats before its previous command responded (20_memory.md R60, R63; U1, U9): beats behind
a bulk command in execution, or behind a whole command not yet taken? -/
def PortState.overrun (x : PortState) : Bool :=
  match x.busy with
  | some _ => !x.inbox.isEmpty
  | none =>
    match decode x.inbox with
    | .short => false
    | .ok _ rest => !rest.isEmpty
    | .illegal _ rest => !rest.isEmpty

/-- Does a FLUSH that has been sent wait on port C while the premise of R254 does not hold (70_reset_and_hazards.md
R254; log 4)? -/
def State.flushExposed (s : State) : Bool :=
  match decode s.portC.inbox with
  | .ok .flush _ => !s.producerQuiet
  | _ => false

/-- Do both agents keep the caller's obligations (20_memory.md R60, 70_reset_and_hazards.md R254)? -/
def State.orderly (s : State) : Bool := !s.portP.overrun && !s.portC.overrun && !s.flushExposed

/-- Make `q` the current port. -/
def State.select (s : State) (q : Port) : State := { s with cur := q }

/-- Which port moves next (20_memory.md R58): the one that has something to do; when both have, either may, as the next
of the grants says, or as a free value when there is none (log 2). -/
def State.arbitrate (s : State) : Option State :=
  match s.portP.ready, s.portC.ready with
  | false, false => none
  | true, false => some (s.select .p)
  | false, true => some (s.select .c)
  | true, true =>
    match s.grants with
    | q :: gs => some ({ s with grants := gs }.select q)
    | [] =>
      some ({ s with draws := s.draws + 1 }.select (if Config.arbiterPicksP s.draws then .p else .c))

/-- The beats still on the current port once a command has been taken. -/
def State.setInbox (s : State) (bs : List Beat) : State := s.setPort s.cur { s.port s.cur with inbox := bs }

/-- An agent sends beats on its port (30_encoding.md R70). Where its previous command has not responded, the next step
faults (`PortState.overrun`). -/
def State.send (s : State) (q : Port) (bs : List Beat) : State :=
  s.setPort q { s.port q with inbox := (s.port q).inbox ++ bs }

/-- The port a command is placed on so that it is legal there: PUSH and PUSHALL on P, all else on C
(30_encoding.md R80). -/
def homePort (bs : List Beat) : Port :=
  match bs with
  | [] => .c
  | cw :: _ => if opOf cw = 0x10 ∨ opOf cw = 0x13 then .p else .c

/-- Place beats on port `q` as the one command sent there, with none in flight, no reset asked for, and, if the other
port has something to do too, the next grant `q`'s (log 14). -/
def State.putOn (s : State) (q : Port) (bs : List Beat) : State :=
  { s.setPort q { s.port q with inbox := bs, busy := none } with
    resetReq := false
    grants := if (s.port q.other).ready then q :: s.grants else s.grants }

/-- Take back what has been sent on port `q` and not taken. -/
def State.recall (s : State) (q : Port) : State := s.setPort q { s.port q with inbox := [] }

/-- Place beats on port `q` so that the very next step takes exactly the command they hold; where what the other port
has sent would stop that step, it is taken back (log 14). -/
def State.placeOn (s : State) (q : Port) (bs : List Beat) : State :=
  if (s.putOn q bs).orderly then s.putOn q bs else (s.recall q.other).putOn q bs

/-- Place beats on their home port (log 14). -/
def State.place (s : State) (bs : List Beat) : State := s.placeOn (homePort bs) bs

end Sys2Proof.Machine
end

