-- ==== Sys2Proof/Machine/Run.lean ====
section
/-! DEFINITION. What one step does: one atomic part of one command (20_memory.md R58), construction applied again
(70_reset_and_hazards.md R251), or nothing (60_exceptions.md R246). -/

namespace Sys2Proof.Machine

/-- The current port's next atomic part: go on with the bulk command in execution, or take the next command sent; a beat
that decodes to nothing is answered ILLEGAL (30_encoding.md R81). -/
def State.runCurrent (s : State) : Result :=
  match s.running with
  | some r => exec r.instr s
  | none =>
    match decode (s.port s.cur).inbox with
    | .short => .next s
    | .ok i rest => exec i (s.setInbox rest)
    | .illegal e rest => .next ((s.setInbox rest).illegal (reasonOf e))

/-- One step (20_memory.md R58): construction applied again, the selected port's next atomic part, or nothing; a fault
where an agent has broken its obligations (20_memory.md R60, 70_reset_and_hazards.md R254; log 4, log 11). -/
def State.advance (s : State) : Result :=
  if s.resetReq then
    if s.idle then .next s.rebuild else .fault .resetWhileBusy
  else if s.portP.overrun || s.portC.overrun then .fault .sentTooEarly
  else if s.flushExposed then .fault .flushNotQuiescent
  else
    match s.arbitrate with
    | none => .next s
    | some t => t.runCurrent

/-- Steps until port `q` has no command in flight; `none` where `n` steps are too few for the command there to have
responded. -/
def State.untilFree : Nat → Port → State → Option Result
  | 0, q, s => if (s.port q).free then some (.next s) else none
  | n + 1, q, s =>
    if (s.port q).free then some (.next s)
    else
      match s.advance with
      | .next t => t.untilFree n q
      | .fault f => some (.fault f)
      | .refused r => some (.refused r)

/-- The agents' commands, each sent once the one before has responded, with at most `n` steps for each; `none` where `n`
steps are too few for one of them (20_memory.md R58, R60; log 14). -/
def runProgram (n : Nat) : List (Port × List Beat) → State → Option Result
  | [], s => some (.next s)
  | (q, bs) :: rest, s =>
    match (s.send q bs).untilFree n q with
    | some (.next t) => runProgram n rest t
    | some (.fault f) => some (.fault f)
    | some (.refused r) => some (.refused r)
    | none => none

/-- Commands one after another on the current port, each one atomic part of it. -/
def execAll : List Instr → State → Result
  | [], s => .next s
  | i :: is, s =>
    match exec i s with
    | .next t => execAll is t
    | .fault f => .fault f
    | .refused r => .refused r

end Sys2Proof.Machine
end

