-- ==== Sys2Proof/Machine/Step.lean ====
section
/-! DEFINITION. The step of the machine and where the host places an instruction. -/

namespace Sys2Proof.Machine

/-- One step: one atomic part of one command (20_memory.md R58). -/
def step (s : State) : Host.Outcome State Fault Refusal := s.advance

/-- `s` with the instruction whose bits are `w` placed where the very next step takes it (log 14). -/
def State.withFetchWord (s : State) (nbits w : Nat) : State := s.place (tableBeats nbits w)

end Sys2Proof.Machine
end

