-- ==== Sys2Proof/Machine/Pseudo.lean ====
section
/-! DEFINITION. The pseudo-commands, each an exact expansion (30_encoding.md R84). -/

namespace Sys2Proof.Machine

/-- `P: ONBYTE b` (30_encoding.md R84, 44_decode_adapter.md R193). -/
def pseudoOnbyte (b : Byte) : List Instr := [.push b]

/-- Is NONE the last response given on port `q`? -/
def State.answeredNone (s : State) (q : Port) : Bool :=
  match (s.port q).out.getLast? with
  | some r => r.st == .none
  | none => false

/-- Repeat `one`, which has responded on port `q` where it ends in a next state, until it responds NONE there: what stops
the repetition, or `none` where `m` repetitions are too few or one of them has not responded. -/
def repeatUntilNone (q : Port) (one : State → Option Result) : Nat → State → Option Result
  | 0, _ => none
  | m + 1, s =>
    match one s with
    | some (.next t) => if t.answeredNone q then some (.next t) else repeatUntilNone q one m t
    | some (.fault f) => some (.fault f)
    | some (.refused r) => some (.refused r)
    | none => none

/-- `C: DRAIN` (30_encoding.md R84) with no producer activity: DECODE1 until it responds NONE. Each one that does not
takes a byte out of the ring, so that `used() + 1` repetitions are enough (ProcessEqualsDrain). -/
def pseudoDrain (s : State) : Option Result :=
  repeatUntilNone s.cur (fun s => some (exec .decode1 s)) (s.usedCount.toNat + 1) s

/-- `C: DRAIN` (30_encoding.md R84) as the agent on port C does it, the producer running between its commands: DECODE1 is
sent, and sent again once it has responded, until it responds NONE. DESIGN CHOICE (log 17): at most `m` times, and at most
`n` steps for each, since the rule gives no bound where the producer goes on pushing; `none` where either is too small. -/
def runDrain (n m : Nat) (s : State) : Option Result :=
  repeatUntilNone .c (fun s => (s.send .c (encode .decode1)).untilFree n .c) m s

/-- `C: ACCUM s, [b0, ..., bk-1]` (30_encoding.md R84). -/
def pseudoAccum (seed : Half) (bytes : List Byte) : List Instr :=
  .crcseed seed :: (bytes.map .crcacc ++ [.crcrd])

/-- The beats of the lines `C: WRV v, i` that store `vs` from value-buffer cell `i` on. -/
def storeValues : Nat → List Byte → List Beat
  | _, [] => []
  | i, v :: vs => headerOf (.wrv v (BitVec.ofNat 16 i)) :: storeValues (i + 1) vs

/-- `C: SETFRAME tag, [v0, ..., vL-1]` (30_encoding.md R84), as the header beats of its lines, each a command. Its second
line is `C: WRF 6, L`, whose beat has `imm = L` (R83): above 255 values that is a must-be-zero field, and the line is
answered ILLEGAL 2 (R72, R81). DESIGN CHOICE (log 17): `none` above 65535 values, where `L` is no 16-bit `imm` and the line
has no encoding. -/
def pseudoSetframe (tag : Byte) (vs : List Byte) : Option (List Beat) :=
  if vs.length ≤ 65535 then
    some (headerOf (.wrf 5 tag) :: beatOf 0x61 6 (BitVec.ofNat 16 vs.length) :: storeValues 0 vs)
  else none

/-- `C: SEND calc` (30_encoding.md R84): PACK, then TXB over the `9 + F.LEN` bytes of the wire image. -/
def pseudoSend (calcFlag : Byte) (s : State) : List Instr :=
  .pack calcFlag :: (List.range (9 + s.frame.len.toNat)).map (fun i => .txb (BitVec.ofNat 16 i))

end Sys2Proof.Machine
end

