-- ==== Sys2Proof/Safety.lean ====
section
/-! DEFINITION. What a safe run keeps (the invariant), and the words the claims are written in: which parts of the
state a command leaves as they were, and what it answers. -/

namespace Sys2Proof.Machine

/-! ### The invariant -/

/-- The parser states a profile uses (10_state.md R31, third column). -/
def pstateOf : Profile → PState → Bool
  | .trailer, q => !(q = .awaitResv0 || q = .awaitResv1 || q = .awaitResv2)
  | .header, q => !(q = .awaitResv0 || q = .awaitResv1 || q = .awaitResv2)
  | .pkt, q => !(q = .awaitCalc || q = .awaitChecksumLow || q = .awaitChecksumHigh)

/-- The bulk commands a port can have in execution, and how far one can be (20_memory.md R58, 30_encoding.md R77, R80). -/
def runLegal : Port → Option Running → Prop
  | _, none => True
  | .p, some (.pushall payload n) => n ≤ payload.length ∧ payload.length ≤ maxPayload
  | .p, some (.popall _ _) => False
  | .p, some (.crc16 _ _ _) => False
  | .p, some .process => False
  | .c, some (.pushall _ _) => False
  | .c, some (.popall maxCount out) => out.length ≤ maxCount.toNat
  | .c, some (.crc16 payload n acc) =>
    n ≤ payload.length ∧ payload.length ≤ maxPayload ∧ acc = crc16 (payload.take n)
  | .c, some .process => True

/-- The bytes the ring holds, oldest first (10_state.md R23). -/
def State.held (s : State) : List Byte :=
  (List.range s.usedCount.toNat).map fun i => s.rbRead (s.phys (s.head + BitVec.ofNat 32 i))

/-- What construction establishes and every step keeps: the ring holds at most `N` bytes, each of them written
(10_state.md R21, R23); storage is canonical and inside its bounds (10_state.md R27); the parser is in a state of its
profile (10_state.md R31); the byte counter is below `F.LEN` while a value is collected and zero otherwise
(10_state.md R32); a bulk command in execution is one its port may run. -/
structure State.Inv (s : State) : Prop where
  used_le : s.usedCount.toNat ≤ s.cfg.cap
  live_written : ∀ i, i < s.usedCount.toNat → (s.rb.get (s.phys (s.head + BitVec.ofNat 32 i))).isSome = true
  rb_wf : s.rb.wf
  rb_inside : ∀ x ∈ s.rb, x.1 < s.cfg.cap
  val_wf : s.val.wf
  val_inside : ∀ x ∈ s.val, x.1 < s.cfg.vcap
  pstate_legal : pstateOf s.cfg.profile s.pstate = true
  collecting : s.pstate = .awaitValue → s.byteCnt.toNat < s.frame.len.toNat
  not_collecting : s.pstate ≠ .awaitValue → s.byteCnt = 0
  running_p : runLegal .p s.portP.busy
  running_c : runLegal .c s.portC.busy

/-! ### Parts of the state left as they were -/

/-- Ring storage, read cell by cell, and both indices. -/
def SameRing (s t : State) : Prop := (∀ a, t.rbRead a = s.rbRead a) ∧ t.head = s.head ∧ t.tail = s.tail

/-- The CRC accumulator. -/
def SameCrc (s t : State) : Prop := t.crc = s.crc

/-- The twelve Frame registers and the value buffer, read cell by cell. -/
def SameFrame (s t : State) : Prop := t.frame = s.frame ∧ ∀ a, t.valRead a = s.valRead a

/-- The four session counters. -/
def SameSession (s t : State) : Prop :=
  t.lastSeqRx = s.lastSeqRx ∧ t.lastSeqTx = s.lastSeqTx ∧ t.errorCount = s.errorCount ∧ t.validCount = s.validCount

/-- The parser state and its byte counter. -/
def SameParser (s t : State) : Prop := t.pstate = s.pstate ∧ t.byteCnt = s.byteCnt

/-- The bulk commands in execution, on both ports. -/
def SameBusy (s t : State) : Prop := ∀ q, (t.port q).busy = (s.port q).busy

/-- The HANDLE events emitted. -/
def SameEvents (s t : State) : Prop := t.handled = s.handled

/-- The configuration, what the agents have sent, and the model's own fields. -/
def SameOutside (s t : State) : Prop :=
  t.cfg = s.cfg ∧ (∀ q, (t.port q).inbox = (s.port q).inbox) ∧ t.cur = s.cur ∧ t.grants = s.grants ∧
    t.draws = s.draws ∧ t.epoch = s.epoch ∧ t.resetReq = s.resetReq

/-- The response words `rs` are given on the current port, after those already given, and none on the other. -/
def Answers (s t : State) (rs : List Resp) : Prop :=
  (t.port s.cur).out = (s.port s.cur).out ++ rs ∧ (t.port s.cur.other).out = (s.port s.cur.other).out

/-- One response word. -/
def resp (st : Status) (data : Word) : List Resp := [{ st := st, data := data }]

/-- Nothing changes but the responses. -/
def OnlyAnswers (s t : State) (rs : List Resp) : Prop :=
  Answers s t rs ∧ SameRing s t ∧ SameCrc s t ∧ SameFrame s t ∧ SameSession s t ∧ SameParser s t ∧ SameBusy s t ∧
    SameEvents s t ∧ SameOutside s t

/-- All but the ring and the responses. -/
def SameButRing (s t : State) : Prop :=
  SameCrc s t ∧ SameFrame s t ∧ SameSession s t ∧ SameParser s t ∧ SameBusy s t ∧ SameEvents s t ∧ SameOutside s t

/-- All but the ring, the bulk commands in execution and the responses. -/
def SameButRingAndBusy (s t : State) : Prop :=
  SameCrc s t ∧ SameFrame s t ∧ SameSession s t ∧ SameParser s t ∧
    (t.port s.cur.other).busy = (s.port s.cur.other).busy ∧ SameEvents s t ∧ SameOutside s t

/-- All but the CRC accumulator and the responses. -/
def SameButCrc (s t : State) : Prop :=
  SameRing s t ∧ SameFrame s t ∧ SameSession s t ∧ SameParser s t ∧ SameBusy s t ∧ SameEvents s t ∧ SameOutside s t

/-- All but the Frame, the session counters, the parser and the responses. -/
def SameButLink (s t : State) : Prop :=
  SameRing s t ∧ SameCrc s t ∧ SameBusy s t ∧ SameEvents s t ∧ SameOutside s t

/-- The Frame registers are those of `s` but for `r`, which holds `v`. -/
def OneRegister (s t : State) (r : FReg) (v : Byte) : Prop :=
  t.frame.get r = v ∧ ∀ x, x ≠ r → t.frame.get x = s.frame.get x

/-- The value buffer, read cell by cell. -/
def SameValue (s t : State) : Prop := ∀ a, t.valRead a = s.valRead a

/-- The command completes and changes nothing but that it answers `rs`. -/
def Completes (i : Instr) (s : State) (rs : List Resp) : Prop := ∃ t, exec i s = .next t ∧ OnlyAnswers s t rs

/-- The command is refused: ILLEGAL with reason number `n` of 30_encoding.md R81, and nothing else changes. -/
def Refused (i : Instr) (s : State) (n : Word) : Prop := Completes i s (resp .illegal n)

/-- The port rule (30_encoding.md R79, R80): PUSH and PUSHALL on P, the queries on both, every other command on C. -/
def legalOn (q : Port) (i : Instr) : Bool :=
  match i with
  | .push _ => q = .p
  | .pushall _ => q = .p
  | .used => true
  | .free => true
  | .empty => true
  | .full => true
  | .rds _ => true
  | .pop => q = .c
  | .peek => q = .c
  | .popall _ => q = .c
  | .flush => q = .c
  | .crcinit => q = .c
  | .crcseed _ => q = .c
  | .crcacc _ => q = .c
  | .crcrd => q = .c
  | .crc16 _ => q = .c
  | .step _ => q = .c
  | .verify => q = .c
  | .pack _ => q = .c
  | .txb _ => q = .c
  | .clrcnt => q = .c
  | .decode1 => q = .c
  | .process => q = .c
  | .rdf _ => q = .c
  | .wrf _ _ => q = .c
  | .rdv _ => q = .c
  | .wrv _ _ => q = .c

/-! ### Encodings -/

/-- The command is spelt by this header beat and its payload (30_encoding.md R71, R79, R83). -/
def SpeltAs (i : Instr) (op a : Byte) (imm : Half) : Prop := headerOf i = (op ++ a) ++ imm

/-- The formats with a fixed shape of must-be-zero fields (30_encoding.md R72). -/
inductive Format where
  | z
  | a
  | i
  | v
  | wrf
  | wrv
  deriving DecidableEq, Repr

/-- The opcode map as rows: opcode and format (30_encoding.md R79). -/
def opcodeRows : List (Byte × Format) :=
  [(0x10, .a), (0x11, .z), (0x12, .z), (0x13, .v), (0x14, .i), (0x15, .z), (0x16, .z), (0x17, .z), (0x18, .z)]
    ++ [(0x19, .z), (0x20, .z), (0x21, .i), (0x22, .a), (0x23, .z), (0x24, .v), (0x30, .a), (0x40, .z), (0x41, .a)]
    ++ [(0x42, .i), (0x43, .z), (0x50, .z), (0x51, .z), (0x60, .a), (0x61, .wrf), (0x62, .i), (0x63, .wrv), (0x64, .a)]

/-- The must-be-zero fields of a format are zero (30_encoding.md R72). -/
def fieldsZero : Format → Beat → Bool
  | .z, cw => aOf cw = 0 && immOf cw = 0
  | .a, cw => immOf cw = 0
  | .i, cw => aOf cw = 0
  | .v, cw => aOf cw = 0
  | .wrf, cw => (immOf cw).extractLsb' 8 8 = 0
  | .wrv, _ => true

end Sys2Proof.Machine
end

