-- ==== Sys2Proof/Certificates/Slice0/Obligations.lean ====
section
/-! DEFINITION. The statements for the provers. The words they use (SameRing, Answers, Completes, Inv ...) are those of
Sys2Proof/Safety.lean. -/

open Sys2Proof Sys2Proof.Machine

/-! ### Construction, reset, steps -/

/-- 70_reset_and_hazards.md R250 (the spec's decision D30): construction with legal parameters leaves exactly the stated
values; the Frame registers, `VAL` and `RB` are unspecified: no cell is listed and the registers hold free values, of
which nothing is said. -/
def Obligations.ConstructionLeavesResetState : Prop :=
  ∀ (q : Params) (cfg : Cfg), checkParams q = .ok cfg →
    ∃ s, construct q = .ok s ∧ s.cfg = cfg ∧ cfg.params = q ∧ s.head = 0 ∧ s.tail = 0 ∧ s.rb = [] ∧ s.val = [] ∧
      s.pstate = .awaitMark ∧ s.byteCnt = 0 ∧ s.lastSeqRx = 0 ∧ s.lastSeqTx = 0 ∧ s.errorCount = 0 ∧
      s.validCount = 0 ∧ s.crc = 0xFFFF ∧ s.handled = [] ∧ s.portP = PortState.idle ∧ s.portC = PortState.idle

/-- 00_scope.md R9: an instance exists exactly for legal parameters. -/
def Obligations.ConstructionSucceedsExactlyWhenLegal : Prop :=
  ∀ q : Params, (∃ s, construct q = .ok s) ↔
    ((∃ k, k ≤ 31 ∧ q.cap = 2 ^ k) ∧ 1 ≤ q.vcap ∧ q.vcap ≤ 255 ∧ (q.lenMode = .ascii → q.profile = .pkt))

/-- 00_scope.md R7: the parameters are constant for the life of the instance. -/
def Obligations.ConfigurationNeverChanges : Prop :=
  ∀ s t : State, step s = .next t → t.cfg = s.cfg

/-- Every step keeps the invariant `State.Inv` (10_state.md R21, R23, R27, R31, R32 put together), from every state
that meets it. -/
def Obligations.EveryStepKeepsTheInvariant : Prop :=
  ∀ s t : State, s.Inv → step s = .next t → t.Inv

/-- Construction establishes the invariant, for every legal configuration. -/
def Obligations.ConstructedStateMeetsTheInvariant : Prop :=
  (∀ (cfg : Cfg) (n : Nat), (State.constructed cfg n).Inv) ∧ State.reset.Inv

/-- While both agents keep their obligations (`State.orderly`) a step runs the next atomic part on the port it selects:
the bulk command in execution there, or else the one command the port's beats are, those beats taken. Selected is the only
port with something to do, or, when both have, the next grant (20_memory.md R58; the grants are the model's way to hold
the open choice, log 2). -/
def Obligations.StepRunsTheDecodedCommand : Prop :=
  ∀ (s : State) (q : Port), s.resetReq = false → s.orderly = true →
    (∀ i rest, (s.port q).busy = none → decode (s.port q).inbox = .ok i rest → rest = [] ∧
      ((s.port q.other).ready = false → step s = exec i (State.setInbox { s with cur := q } [])) ∧
      (∀ gs, (s.port q.other).ready = true → s.grants = q :: gs →
        step s = exec i (State.setInbox { s with cur := q, grants := gs } []))) ∧
    (∀ r, (s.port q).busy = some r →
      ((s.port q.other).ready = false → step s = exec r.instr { s with cur := q }) ∧
      (∀ gs, (s.port q.other).ready = true → s.grants = q :: gs →
        step s = exec r.instr { s with cur := q, grants := gs }))

/-- The caller's obligations (20_memory.md R60, 70_reset_and_hazards.md R253, R254, R258; 93_implementation_defined.md U1,
U2, U9 say `fault`; the model's form, log 4 and log 11). Beats sent on a port whose command is in execution, PROCESS
among them, or has been sent and not taken, fault; so does a FLUSH that waits while a push-path command is in flight. A
command sent while no command is in flight is in order. -/
def Obligations.SendingTooEarlyFaults : Prop :=
  ∀ (s : State) (q : Port) (b : Beat) (bs : List Beat), s.resetReq = false →
    ((s.port q).busy ≠ none → step (s.send q (b :: bs)) = .fault .sentTooEarly) ∧
    (∀ i, (s.port q).busy = none → decode (s.port q).inbox = .ok i [] →
      step (s.send q (b :: bs)) = .fault .sentTooEarly) ∧
    (s.portC.busy = none → decode s.portC.inbox = .ok .flush [] →
      (∀ ps n, s.portP.busy = some (.pushall ps n) → s.portP.inbox = [] → step s = .fault .flushNotQuiescent) ∧
      (∀ x, s.portP.busy = none → s.portP.inbox = [headerOf (.push x)] → step s = .fault .flushNotQuiescent)) ∧
    (∀ i, s.idle = true → decode bs = .ok i [] → (s.send q bs).orderly = true)

/-- When both ports have something to do, and their agents keep their obligations, either may go first: a grant decides,
and without one a free value does, of which nothing is said; with nothing to do on either port the block stays as it is
(20_memory.md R58, 60_exceptions.md R246; the model's form, log 2 and log 15). -/
def Obligations.ArbitrationAdmitsBothOrders : Prop :=
  ∀ s : State, s.resetReq = false →
    (s.orderly = true → s.portP.ready = true → s.portC.ready = true →
      (∀ q gs, s.grants = q :: gs → step s = State.runCurrent { s with cur := q, grants := gs }) ∧
      (s.grants = [] →
        step s = State.runCurrent { s with cur := .p, draws := s.draws + 1 } ∨
        step s = State.runCurrent { s with cur := .c, draws := s.draws + 1 })) ∧
    (s.portP.ready = false → s.portC.ready = false → step s = .next s)

/-- 70_reset_and_hazards.md R251: reset applied again keeps the parameters, discards all state of the block and leaves
both ports idle; with a command in flight, in execution or sent and not taken, it is not allowed, and the model faults
(log 9). -/
def Obligations.ResetAppliedAgainReconstructs : Prop :=
  ∀ s : State, s.resetReq = true →
    ((∀ q, (s.port q).busy = none ∧ (s.port q).inbox = []) →
      ∃ t, step s = .next t ∧ t.cfg = s.cfg ∧ t.head = 0 ∧ t.tail = 0 ∧ t.rb = [] ∧ t.val = [] ∧
        t.pstate = .awaitMark ∧ t.byteCnt = 0 ∧ t.lastSeqRx = 0 ∧ t.lastSeqTx = 0 ∧ t.errorCount = 0 ∧
        t.validCount = 0 ∧ t.crc = 0xFFFF ∧ t.resetReq = false ∧
        ∀ q, (t.port q).busy = none ∧ (t.port q).inbox = [] ∧ (t.port q).out = (s.port q).out) ∧
    (∀ q, ((s.port q).busy ≠ none ∨ (s.port q).inbox ≠ []) → step s = .fault .resetWhileBusy)

/-! ### Encoding -/

/-- Decoding the beats of a well-formed command gives it back, whatever beats follow: all 27 commands, every operand at
every value (30_encoding.md R71, R72, R77, R79, R83). -/
def Obligations.DecodeInvertsEncode : Prop :=
  ∀ (i : Instr) (rest : List Beat), i.wf = true → decode (encode i ++ rest) = .ok i rest

/-- Every accepted header beat has exactly one spelling (30_encoding.md R73): a command that is decoded is well formed,
its header beat is the one its encoding has, and its payload bytes are bits 7:0 of the beats taken (R77). -/
def Obligations.EncodeInvertsDecode : Prop :=
  ∀ (cw : Beat) (bs rest : List Beat) (i : Instr), decode (cw :: bs) = .ok i rest →
    i.wf = true ∧ headerOf i = cw ∧
      ∃ ps, bs = ps ++ rest ∧ i.payload = ps.map (fun b => b.extractLsb' 0 8)

/-- Words written out from the opcode map and 95_test_vectors.md decode to the commands they stand for: at least one of
every family. A sanity statement. -/
def Obligations.WrittenOutWordsDecode : Prop :=
  decode [0x10410000] = .ok (.push 0x41) [] ∧
  decode [0x13000002, 0xFFFFFF07, 0x08, 0x11000000] = .ok (.pushall [0x07, 0x08]) [0x11000000] ∧
  decode [0x2100F020] = .ok (.crcseed 0xF020) [] ∧
  decode [0x307E0000] = .ok (.step 0x7E) [] ∧
  decode [0x4200000A] = .ok (.txb 0x000A) [] ∧
  decode [0x50000000] = .ok .decode1 [] ∧
  decode [0x6105005A] = .ok (.wrf 0x05 0x5A) [] ∧
  decode [0x63C300F5] = .ok (.wrv 0xC3 0x00F5) []

/-- Which header beats are no command, and for which of the two reasons (30_encoding.md R72, R79, R81, R82): an opcode
outside the map, tested first; a must-be-zero field that is not zero. -/
def Obligations.HeaderBeatsAreClassified : Prop :=
  ∀ (cw : Beat) (ps : List Byte),
    (decodeHeader cw ps = .error .unknownOpcode ↔ ∀ row ∈ opcodeRows, row.1 ≠ opOf cw) ∧
    (decodeHeader cw ps = .error .mustBeZero ↔ ∃ row ∈ opcodeRows, row.1 = opOf cw ∧ fieldsZero row.2 cw = false) ∧
    ((∃ i, decodeHeader cw ps = .ok i) ↔ ∃ row ∈ opcodeRows, row.1 = opOf cw ∧ fieldsZero row.2 cw = true)

/-- A beat that is no command is answered ILLEGAL with its reason, its payload beats are consumed and dropped (none
follow an unknown opcode), and nothing else changes (30_encoding.md R77, R81). Beats behind it would be sent too early
(SendingTooEarlyFaults). -/
def Obligations.UndecodableBeatIsAnsweredIllegal : Prop :=
  ∀ (s : State) (q : Port) (cw : Beat) (bs rest : List Beat) (e : DecodeError),
    s.resetReq = false → (s.port q).busy = none → (s.port q.other).ready = false →
    (s.port q).inbox = cw :: bs → decode (cw :: bs) = .illegal e rest →
    rest = bs.drop (payloadBeats cw) ∧ (e = .unknownOpcode → rest = bs) ∧
    (rest = [] → ∃ t, step s = .next t ∧
      OnlyAnswers (State.setInbox { s with cur := q } []) t
        (resp .illegal (match e with | .unknownOpcode => 1 | .mustBeZero => 2)))

/-- 30_encoding.md R80: a command is refused with reason 3 exactly on a port where it is not legal. -/
def Obligations.PortLegalityIsEnforced : Prop :=
  ∀ (i : Instr) (s : State),
    (legalOn s.cur i = false → Refused i s 3) ∧
    (legalOn s.cur i = true → ∀ t, exec i s = .next t → ¬ Answers s t (resp .illegal 3))

/-- 60_exceptions.md R227, 30_encoding.md R81: a command answered ILLEGAL changed nothing, emitted no event and consumed
no ring byte, whichever command it is. -/
def Obligations.IllegalAnswersChangeNothing : Prop :=
  ∀ (i : Instr) (s t : State) (reason : Word),
    exec i s = .next t → Answers s t (resp .illegal reason) → OnlyAnswers s t (resp .illegal reason)

/-! ### The ring -/

/-- PUSH (40_ring_buffer.md R101): a full ring drops the byte; otherwise the byte is written at `phys(TAIL)`, `TAIL`
advances, and nothing else changes. -/
def Obligations.PushAppendsOrReportsFull : Prop :=
  ∀ (b : Byte) (s : State), SpeltAs (.push b) 0x10 b 0 ∧
    (s.cur = .p → s.tail - s.head = s.cfg.capWord → Completes (.push b) s (resp .full 0)) ∧
    (s.cur = .p → s.tail - s.head ≠ s.cfg.capWord →
      ∃ t, exec (.push b) s = .next t ∧ t.rbRead (s.phys s.tail) = b ∧
        (∀ a, a ≠ s.phys s.tail → t.rbRead a = s.rbRead a) ∧ t.tail = s.tail + 1 ∧ t.head = s.head ∧
        Answers s t (resp .ok 0) ∧ SameButRing s t)

/-- POP (40_ring_buffer.md R102): an empty ring answers NONE; otherwise the byte at `phys(HEAD)` is answered, `HEAD`
advances, and nothing else changes. -/
def Obligations.PopRemovesTheOldestByte : Prop :=
  ∀ s : State, SpeltAs .pop 0x11 0 0 ∧
    (s.cur = .c → s.head = s.tail → Completes .pop s (resp .none 0)) ∧
    (s.cur = .c → s.head ≠ s.tail →
      ∃ t, exec .pop s = .next t ∧ t.head = s.head + 1 ∧ t.tail = s.tail ∧ (∀ a, t.rbRead a = s.rbRead a) ∧
        Answers s t (resp .ok ((s.rbRead (s.phys s.head)).setWidth 32)) ∧ SameButRing s t)

/-- PEEK (40_ring_buffer.md R103): the oldest byte, or NONE; nothing changes. -/
def Obligations.PeekIsNonDestructive : Prop :=
  ∀ s : State, SpeltAs .peek 0x12 0 0 ∧
    (s.cur = .c → s.head = s.tail → Completes .peek s (resp .none 0)) ∧
    (s.cur = .c → s.head ≠ s.tail → Completes .peek s (resp .ok ((s.rbRead (s.phys s.head)).setWidth 32)))

/-- PUSHALL, one micro-operation (40_ring_buffer.md R104; one atomic part a step, log 3): the body of PUSH on the next
payload byte, or the answer with the count when the ring is full or no byte is left. -/
def Obligations.PushallPushesOneByteAPart : Prop :=
  ∀ (ps : List Byte) (s : State), SpeltAs (.pushall ps) 0x13 0 (BitVec.ofNat 16 ps.length) ∧ (s.cur = .p →
    (∀ b, s.tail - s.head ≠ s.cfg.capWord → ps[s.pushallPosition]? = some b →
      ∃ t, exec (.pushall ps) s = .next t ∧ t.rbRead (s.phys s.tail) = b ∧
        (∀ a, a ≠ s.phys s.tail → t.rbRead a = s.rbRead a) ∧ t.tail = s.tail + 1 ∧ t.head = s.head ∧
        t.portP.busy = some (.pushall ps (s.pushallPosition + 1)) ∧ Answers s t [] ∧ SameButRingAndBusy s t) ∧
    ((s.tail - s.head = s.cfg.capWord ∨ ps.length ≤ s.pushallPosition) →
      ∃ t, exec (.pushall ps) s = .next t ∧ t.portP.busy = none ∧
        Answers s t (resp .ok (BitVec.ofNat 32 s.pushallPosition)) ∧ SameRing s t ∧ SameButRingAndBusy s t))

/-- 40_ring_buffer.md R104: with no consumer activity PUSHALL pushes `min(k, N - used())` bytes, a prefix of the payload
in order, and answers that count. -/
def Obligations.PushallAlonePushesWhatFits : Prop :=
  ∀ (s : State) (ps : List Byte),
    s.Inv → s.resetReq = false → s.portC.ready = false → s.portP.busy = none →
    decode s.portP.inbox = .ok (.pushall ps) [] →
    ∃ t, Host.Core.run Sys2Proof.core (min ps.length (s.cfg.cap - s.usedCount.toNat) + 1) s = .next t ∧
      t.held = s.held ++ ps.take (min ps.length (s.cfg.cap - s.usedCount.toNat)) ∧ t.head = s.head ∧
      t.portP.out = s.portP.out ++
        resp .ok (BitVec.ofNat 32 (min ps.length (s.cfg.cap - s.usedCount.toNat))) ∧
      t.portP.busy = none ∧ t.portP.inbox = [] ∧ t.portC = s.portC ∧
      SameCrc s t ∧ SameFrame s t ∧ SameSession s t ∧ SameParser s t ∧ SameEvents s t

/-- POPALL, one micro-operation (40_ring_buffer.md R105; one atomic part a step, log 3): the body of POP, or the answer,
the count and then the bytes oldest first (30_encoding.md R78), when `maxCount` bytes are out or the ring is empty. -/
def Obligations.PopallPopsOneByteAPart : Prop :=
  ∀ (m : Half) (s : State), SpeltAs (.popall m) 0x14 0 m ∧ (s.cur = .c →
    (s.head ≠ s.tail → s.popallOut.length < m.toNat →
      ∃ t, exec (.popall m) s = .next t ∧ t.head = s.head + 1 ∧ t.tail = s.tail ∧ (∀ a, t.rbRead a = s.rbRead a) ∧
        t.portC.busy = some (.popall m (s.popallOut ++ [s.rbRead (s.phys s.head)])) ∧ Answers s t [] ∧
        SameButRingAndBusy s t) ∧
    ((s.head = s.tail ∨ m.toNat ≤ s.popallOut.length) →
      ∃ t, exec (.popall m) s = .next t ∧ t.portC.busy = none ∧ SameRing s t ∧
        Answers s t (resp .ok (BitVec.ofNat 32 s.popallOut.length) ++
          s.popallOut.map (fun b => { st := .ok, data := b.setWidth 32 })) ∧ SameButRingAndBusy s t))

/-- 40_ring_buffer.md R105: with no producer activity POPALL removes `min(maxCount, used())` bytes and answers the count
and the bytes, oldest first. -/
def Obligations.PopallAloneReturnsTheOldestBytes : Prop :=
  ∀ (s : State) (m : Half),
    s.Inv → s.resetReq = false → s.portP.ready = false → s.portC.busy = none →
    decode s.portC.inbox = .ok (.popall m) [] →
    ∃ t, Host.Core.run Sys2Proof.core (min m.toNat s.usedCount.toNat + 1) s = .next t ∧
      t.held = s.held.drop (min m.toNat s.usedCount.toNat) ∧ t.tail = s.tail ∧
      t.portC.out = s.portC.out ++ resp .ok (BitVec.ofNat 32 (min m.toNat s.usedCount.toNat)) ++
        (s.held.take (min m.toNat s.usedCount.toNat)).map (fun b => { st := .ok, data := b.setWidth 32 }) ∧
      t.portC.busy = none ∧ t.portC.inbox = [] ∧ t.portP = s.portP ∧
      SameCrc s t ∧ SameFrame s t ∧ SameSession s t ∧ SameParser s t ∧ SameEvents s t

/-- USED, EMPTY, FULL (40_ring_buffer.md R106, R108, R109): snapshots on either port; nothing changes. -/
def Obligations.RingQueriesReportCounts : Prop :=
  ∀ s : State,
    SpeltAs .used 0x15 0 0 ∧ SpeltAs .empty 0x17 0 0 ∧ SpeltAs .full 0x18 0 0 ∧
    Completes .used s (resp .ok (s.tail - s.head)) ∧
    Completes .empty s (resp .ok (if s.head = s.tail then 1 else 0)) ∧
    Completes .full s (resp .ok (if s.tail - s.head = s.cfg.capWord then 1 else 0))

/-- FREE (40_ring_buffer.md R107, which the spec marks as its own derivation): the answered count and the used-count
make up the capacity; nothing changes. -/
def Obligations.FreeReportsTheRestOfTheRing : Prop :=
  ∀ s : State, SpeltAs .free 0x16 0 0 ∧
    ∃ d, Completes .free s (resp .ok d) ∧ d + (s.tail - s.head) = s.cfg.capWord

/-- FLUSH (40_ring_buffer.md R110) under its premise (70_reset_and_hazards.md R254), that nothing in flight or sent on
port P is a push-path command: both indices become 0 and nothing else changes, the parser included. Without the premise
it is a fault. The premise holds where nothing is in flight or sent, or only queries have been; it fails while a PUSHALL
is in flight, and where a PUSH or PUSHALL has been sent, at once, behind a query, or behind a refused command and its
payload. -/
def Obligations.FlushEmptiesTheRingOrFaults : Prop :=
  ∀ s : State, SpeltAs .flush 0x19 0 0 ∧ (s.cur = .c →
    (s.producerQuiet = true →
      ∃ t, exec .flush s = .next t ∧ t.head = 0 ∧ t.tail = 0 ∧ (∀ a, t.rbRead a = s.rbRead a) ∧
        Answers s t (resp .ok 0) ∧ SameButRing s t) ∧
    (s.producerQuiet = false → exec .flush s = .fault .flushNotQuiescent)) ∧
    (s.portP.busy = none →
      (∀ x ∈ s.portP.inbox, ∃ i, x = headerOf i ∧
        (i = .used ∨ i = .free ∨ i = .empty ∨ i = .full ∨ ∃ a, i = .rds a)) → s.producerQuiet = true) ∧
    (∀ ps n, s.portP.busy = some (.pushall ps n) → s.producerQuiet = false) ∧
    (∀ i rest, ((∃ b, i = Instr.push b) ∨ ∃ ps, i = Instr.pushall ps) →
      (s.portP.inbox = headerOf i :: rest → s.producerQuiet = false) ∧
      (∀ j, (j = .used ∨ j = .free ∨ j = .empty ∨ j = .full ∨ ∃ a, j = .rds a) →
        s.portP.inbox = headerOf j :: headerOf i :: rest → s.producerQuiet = false) ∧
      (∀ ps, Instr.wf (.crc16 ps) = true →
        s.portP.inbox = encode (.crc16 ps) ++ headerOf i :: rest → s.producerQuiet = false))

/-- The ring is a first-in first-out queue under every step (40_ring_buffer.md R111; 10_state.md R22, R23): a step leaves
the bytes held as they were, appends one at the tail, removes the oldest, or, when it ran a FLUSH sent on port C, empties
the ring. -/
def Obligations.EveryStepTreatsTheRingAsAQueue : Prop :=
  ∀ s t : State, s.Inv → s.resetReq = false → step s = .next t →
    (t.held = s.held ∧ t.head = s.head ∧ t.tail = s.tail) ∨
    (∃ b, t.held = s.held ++ [b] ∧ t.head = s.head ∧ t.tail = s.tail + 1) ∨
    (∃ b, s.held = b :: t.held ∧ t.head = s.head + 1 ∧ t.tail = s.tail) ∨
    (t.held = [] ∧ t.head = 0 ∧ t.tail = 0 ∧ t.cur = .c ∧ s.portC.busy = none ∧
      decode s.portC.inbox = .ok .flush [])

/-- 40_ring_buffer.md R112: from an empty ring, whatever the indices, `N` PUSHes are all accepted and fill it, one more
is rejected, `N` POPs return the bytes in order and empty it, and one more POP answers NONE. -/
def Obligations.FillAndDrain : Prop :=
  ∀ (s : State) (bs : List Byte), s.cur = .p → s.head = s.tail → bs.length = s.cfg.cap →
    ∃ t, execAll (bs.map Instr.push) s = .next t ∧
      t.portP.out = s.portP.out ++ List.replicate s.cfg.cap { st := .ok, data := 0 } ∧
      Completes .full t (resp .ok 1) ∧ (∀ b, Completes (.push b) t (resp .full 0)) ∧
      ∃ u, execAll (List.replicate s.cfg.cap .pop) { t with cur := .c } = .next u ∧
        u.portC.out = s.portC.out ++ bs.map (fun b => { st := .ok, data := b.setWidth 32 }) ∧
        Completes .empty u (resp .ok 1) ∧ Completes .pop u (resp .none 0)

/-- 60_exceptions.md R240, 20_memory.md R62: a command on port P writes nothing but `RB` and `TAIL` (and its own port);
a command on port C other than FLUSH writes neither of them. -/
def Obligations.EachPortWritesOnlyItsOwnState : Prop :=
  ∀ (i : Instr) (s t : State), exec i s = .next t →
    (s.cur = .p → t.head = s.head ∧ SameCrc s t ∧ SameFrame s t ∧ SameSession s t ∧ SameParser s t ∧
      SameEvents s t ∧ t.portC = s.portC) ∧
    (s.cur = .c → i ≠ .flush → t.tail = s.tail ∧ (∀ a, t.rbRead a = s.rbRead a) ∧ t.portP = s.portP)

/-! ### The checksum -/

/-- CRCINIT, CRCSEED, CRCACC, CRCRD (41_checksum.md R122 to R125; the spec's decision D32): the accumulator is loaded,
folded with one byte, or read, and nothing else changes. -/
def Obligations.CrcRegisterLoadsFoldsAndReads : Prop :=
  ∀ (s : State) (v : Half) (b : Byte),
    SpeltAs .crcinit 0x20 0 0 ∧ SpeltAs (.crcseed v) 0x21 0 v ∧ SpeltAs (.crcacc b) 0x22 b 0 ∧
    SpeltAs .crcrd 0x23 0 0 ∧ (s.cur = .c →
    (∃ t, exec .crcinit s = .next t ∧ t.crc = 0xFFFF ∧ Answers s t (resp .ok 0) ∧ SameButCrc s t) ∧
    (∃ t, exec (.crcseed v) s = .next t ∧ t.crc = v ∧ Answers s t (resp .ok 0) ∧ SameButCrc s t) ∧
    (∃ t, exec (.crcacc b) s = .next t ∧ t.crc = crcUpd s.crc b ∧
      Answers s t (resp .ok ((crcUpd s.crc b).setWidth 32)) ∧ SameButCrc s t) ∧
    Completes .crcrd s (resp .ok (s.crc.setWidth 32)))

/-- CRC16, one micro-operation (41_checksum.md R126, 20_memory.md R58; one atomic part a step, log 3): fold the next
payload byte into the private accumulator, or answer it. -/
def Obligations.CrcSixteenFoldsOneByteAPart : Prop :=
  ∀ (ps : List Byte) (s : State), SpeltAs (.crc16 ps) 0x24 0 (BitVec.ofNat 16 ps.length) ∧ (s.cur = .c →
    (∀ b, ps[s.crc16Position.1]? = some b →
      ∃ t, exec (.crc16 ps) s = .next t ∧
        t.portC.busy = some (.crc16 ps (s.crc16Position.1 + 1) (crcUpd s.crc16Position.2 b)) ∧
        Answers s t [] ∧ SameRing s t ∧ SameButRingAndBusy s t) ∧
    (ps.length ≤ s.crc16Position.1 →
      ∃ t, exec (.crc16 ps) s = .next t ∧ t.portC.busy = none ∧
        Answers s t (resp .ok (s.crc16Position.2.setWidth 32)) ∧ SameRing s t ∧ SameButRingAndBusy s t))

/-- 41_checksum.md R126: CRC16 answers the checksum of its payload and leaves the accumulator, and everything else,
alone. -/
def Obligations.CrcSixteenAloneAnswersTheChecksum : Prop :=
  ∀ (s : State) (ps : List Byte),
    s.resetReq = false → s.portP.ready = false → s.portC.busy = none →
    decode s.portC.inbox = .ok (.crc16 ps) [] →
    ∃ t, Host.Core.run Sys2Proof.core (ps.length + 1) s = .next t ∧
      t.portC.out = s.portC.out ++ resp .ok ((crc16 ps).setWidth 32) ∧ t.portC.busy = none ∧
      t.portC.inbox = [] ∧ t.portP = s.portP ∧ SameRing s t ∧ SameCrc s t ∧ SameFrame s t ∧ SameSession s t ∧
      SameParser s t ∧ SameEvents s t

/-- 41_checksum.md R127 as the accumulator commands show it: from any running state, CRCSEED and then CRCACC over `m`
and over `n` and CRCRD answers `crc_acc(seed, m ++ n)` (pseudo-command ACCUM, 30_encoding.md R84). -/
def Obligations.AccumIsIncremental : Prop :=
  ∀ (s : State) (seed : Half) (m n : List Byte), s.cur = .c →
    ∃ t, execAll (pseudoAccum seed (m ++ n)) s = .next t ∧ t.crc = crcAcc (crcAcc seed m) n ∧
      t.portC.out.getLast? = some { st := .ok, data := (crcAcc (crcAcc seed m) n).setWidth 32 } ∧
      SameRing s t ∧ SameFrame s t ∧ SameSession s t ∧ SameParser s t

/-- 41_checksum.md R128 (the spec marks it general knowledge): a message followed by its own checksum, low byte first,
has checksum 0. -/
def Obligations.ChecksumResidueIsZero : Prop :=
  ∀ m : List Byte, crc16 (m ++ [(crc16 m).extractLsb' 0 8, (crc16 m).extractLsb' 8 8]) = 0

/-- 10_state.md R33, 41_checksum.md R129: no command but CRCINIT, CRCSEED and CRCACC writes the accumulator, and none
but CRCACC and CRCRD reads it: from two states that differ in it alone, every other command gives the same answers. -/
def Obligations.CrcAccumulatorIsPrivate : Prop :=
  ∀ (i : Instr) (s t : State) (v : Half), exec i s = .next t →
    i ≠ .crcinit → (∀ x, i ≠ .crcseed x) → (∀ b, i ≠ .crcacc b) →
    t.crc = s.crc ∧ (i ≠ .crcrd → exec i { s with crc := v } = .next { t with crc := v })

/-! ### The parser -/

/-- STEP (42_frame_parser.md R131): the answer is the parser's result; it never verifies (D41), and touches nothing but
the Frame, the parser and `ERROR_COUNT`. -/
def Obligations.StepReportsTheParserResult : Prop :=
  ∀ (b : Byte) (s : State), SpeltAs (.step b) 0x30 b 0 ∧ (s.cur = .c →
    ∃ t, exec (.step b) s = .next t ∧ t.frame = (s.parse b).1.frame ∧
      (∀ a, t.valRead a = (s.parse b).1.valRead a) ∧ t.pstate = (s.parse b).1.pstate ∧
      t.byteCnt = (s.parse b).1.byteCnt ∧ t.errorCount = (s.parse b).1.errorCount ∧
      t.validCount = s.validCount ∧ t.lastSeqRx = s.lastSeqRx ∧ t.lastSeqTx = s.lastSeqTx ∧
      Answers s t (match (s.parse b).2 with
        | .incomplete => resp .incomplete 0
        | .complete => resp .complete 0
        | .error .frameOverflow => resp .error 1
        | .error .checksumMismatch => resp .error 2
        | .error .invalidAsciiDigit => resp .error 3) ∧
      (s.parse b).2 ≠ .error .checksumMismatch ∧ SameButLink s t)

/-- 42_frame_parser.md R133, R134: in AwaitMark only 0x7E is taken, and it starts a frame of the configured profile;
any other byte changes nothing. -/
def Obligations.OnlyTheMarkStartsAFrame : Prop :=
  ∀ (b : Byte) (s : State), s.cur = .c → s.pstate = .awaitMark →
    (b ≠ 0x7E → Completes (.step b) s (resp .incomplete 0)) ∧
    (b = 0x7E →
      ∃ t, exec (.step b) s = .next t ∧ OneRegister s t .mark b ∧
        t.pstate = (match s.cfg.profile with
          | .trailer => .awaitCalc | .header => .awaitChecksumLow | .pkt => .awaitResv0) ∧
        t.byteCnt = s.byteCnt ∧ SameValue s t ∧ SameSession s t ∧ Answers s t (resp .incomplete 0) ∧
        SameButLink s t)

/-- 42_frame_parser.md R135 to R139, R146, R148: the fixed one-byte fields take any byte, in these states, into these
registers, with these successors, under the profiles that use the state (10_state.md R31). -/
def Obligations.FixedFieldsAreRecorded : Prop :=
  ∀ (b : Byte) (s : State) (q n : PState) (r : FReg),
    (q, r, n) ∈ [(PState.awaitCalc, FReg.calcFlag, PState.awaitSeq), (.awaitSeq, .seq, .awaitSys),
      (.awaitSys, .sys, .awaitDev), (.awaitDev, .dev, .awaitTag), (.awaitTag, .tag, .awaitLen),
      (.awaitChecksumLow, .cklo, .awaitChecksumHigh), (.awaitResv0, .resv0, .awaitResv1),
      (.awaitResv1, .resv1, .awaitResv2), (.awaitResv2, .resv2, .awaitSeq)] →
    s.cur = .c → s.pstate = q → pstateOf s.cfg.profile q = true →
    ∃ t, exec (.step b) s = .next t ∧ OneRegister s t r b ∧ t.pstate = n ∧ t.byteCnt = s.byteCnt ∧ SameValue s t ∧
      SameSession s t ∧ Answers s t (resp .incomplete 0) ∧ SameButLink s t

/-- 42_frame_parser.md R147: the high checksum byte completes a TRAILER frame and continues a HEADER frame. -/
def Obligations.ChecksumHighCompletesTrailerFrames : Prop :=
  ∀ (b : Byte) (s : State), s.cur = .c → s.pstate = .awaitChecksumHigh → s.cfg.profile ≠ .pkt →
    ∃ t, exec (.step b) s = .next t ∧ OneRegister s t .ckhi b ∧ t.byteCnt = s.byteCnt ∧ SameValue s t ∧
      SameSession s t ∧ SameButLink s t ∧
      (s.cfg.profile = .trailer → t.pstate = .awaitMark ∧ Answers s t (resp .complete 0)) ∧
      (s.cfg.profile = .header → t.pstate = .awaitCalc ∧ Answers s t (resp .incomplete 0))

/-- 42_frame_parser.md R140, R142: a raw length byte is recorded whatever it is, `VCAP` included; the successor depends
on whether it is zero and on the profile. -/
def Obligations.RawLengthIsRecorded : Prop :=
  ∀ (b : Byte) (s : State), s.cur = .c → s.pstate = .awaitLen → s.cfg.lenMode = .raw →
    ∃ t, exec (.step b) s = .next t ∧ OneRegister s t .len b ∧ t.byteCnt = 0 ∧ SameValue s t ∧ SameSession s t ∧
      SameButLink s t ∧
      (b ≠ 0 → t.pstate = .awaitValue ∧ Answers s t (resp .incomplete 0)) ∧
      (b = 0 → s.cfg.profile = .trailer → t.pstate = .awaitChecksumLow ∧ Answers s t (resp .incomplete 0)) ∧
      (b = 0 → s.cfg.profile ≠ .trailer → t.pstate = .awaitMark ∧ Answers s t (resp .complete 0))

/-- 42_frame_parser.md R141, R149, R150: an ASCII length byte is converted by the digit table; one that is no
hexadecimal digit fails the frame and leaves `F.LEN` as it was. -/
def Obligations.AsciiLengthIsConvertedOrFails : Prop :=
  ∀ (b : Byte) (s : State),
    ((hexval b).map BitVec.toNat =
      (if 0x30 ≤ b.toNat ∧ b.toNat ≤ 0x39 then some (b.toNat - 0x30)
       else if 0x41 ≤ b.toNat ∧ b.toNat ≤ 0x46 then some (b.toNat - 0x41 + 10)
       else if 0x61 ≤ b.toNat ∧ b.toNat ≤ 0x66 then some (b.toNat - 0x61 + 10)
       else none)) ∧ (
    s.cur = .c → s.pstate = .awaitLen → s.cfg.lenMode = .ascii →
    (hexval b = none →
      ∃ t, exec (.step b) s = .next t ∧ SameFrame s t ∧ t.pstate = .awaitMark ∧ t.byteCnt = 0 ∧
        t.errorCount = s.errorCount + 1 ∧ t.validCount = s.validCount ∧ t.lastSeqRx = s.lastSeqRx ∧
        t.lastSeqTx = s.lastSeqTx ∧ Answers s t (resp .error 3) ∧ SameButLink s t) ∧
    (∀ d, hexval b = some d →
      ∃ t, exec (.step b) s = .next t ∧ OneRegister s t .len d ∧ t.byteCnt = 0 ∧ SameValue s t ∧ SameSession s t ∧
        SameButLink s t ∧
        (d ≠ 0 → t.pstate = .awaitValue ∧ Answers s t (resp .incomplete 0)) ∧
        (d = 0 → t.pstate = .awaitMark ∧ Answers s t (resp .complete 0))))

/-- 42_frame_parser.md R143, R145: a value byte of a frame that fits is stored at `VAL[BYTE_CNT]`; the last one leaves
AwaitValue with the counter at zero. -/
def Obligations.ValueByteIsStored : Prop :=
  ∀ (b : Byte) (s : State), s.cur = .c → s.pstate = .awaitValue → s.frame.len.toNat ≤ s.cfg.vcap →
    ∃ t, exec (.step b) s = .next t ∧ t.frame = s.frame ∧ t.valRead s.byteCnt.toNat = b ∧
      (∀ a, a ≠ s.byteCnt.toNat → t.valRead a = s.valRead a) ∧ SameSession s t ∧ SameButLink s t ∧
      (s.byteCnt + 1 ≠ s.frame.len →
        t.pstate = .awaitValue ∧ t.byteCnt = s.byteCnt + 1 ∧ Answers s t (resp .incomplete 0)) ∧
      (s.byteCnt + 1 = s.frame.len → t.byteCnt = 0 ∧
        (s.cfg.profile = .trailer → t.pstate = .awaitChecksumLow ∧ Answers s t (resp .incomplete 0)) ∧
        (s.cfg.profile ≠ .trailer → t.pstate = .awaitMark ∧ Answers s t (resp .complete 0)))

/-- 42_frame_parser.md R144, R149: the first value byte of a frame longer than the buffer fails the frame: nothing is
stored, one error is counted, the parser is back in AwaitMark. -/
def Obligations.OverlongFrameIsRejected : Prop :=
  ∀ (b : Byte) (s : State), s.cur = .c → s.pstate = .awaitValue → s.cfg.vcap < s.frame.len.toNat →
    ∃ t, exec (.step b) s = .next t ∧ SameFrame s t ∧ t.pstate = .awaitMark ∧ t.byteCnt = 0 ∧
      t.errorCount = s.errorCount + 1 ∧ t.validCount = s.validCount ∧ t.lastSeqRx = s.lastSeqRx ∧
      t.lastSeqTx = s.lastSeqTx ∧ Answers s t (resp .error 1) ∧ SameButLink s t

/-- 10_state.md R27: no command writes `VAL[a]` with `a >= VCAP`, from any state that meets the invariant. -/
def Obligations.NoCommandWritesPastTheValueBuffer : Prop :=
  ∀ (i : Instr) (s t : State) (a : Nat), s.Inv → exec i s = .next t → s.cfg.vcap ≤ a →
    t.val.get a = s.val.get a

/-- 10_state.md R28 where it is true: a frame the parser completes under HEADER or PKT fits the value buffer, from every
state. (Under TRAILER a WRF to `F.LEN` between the value and the checksum breaks it, log 13.) -/
def Obligations.CompletedHeaderAndPktFramesFit : Prop :=
  ∀ (s : State) (b : Byte), s.cfg.profile ≠ .trailer → (s.parse b).2 = .complete →
    (s.parse b).1.frame.len.toNat ≤ s.cfg.vcap

/-- 42_frame_parser.md R156 for PKT with raw lengths: a well-formed frame takes exactly `9 + n` bytes from AwaitMark,
completes on the last and on no earlier byte, and leaves its fields in the Frame. -/
def Obligations.PktFrameCompletesOnItsLastByte : Prop :=
  ∀ (s : State) (r0 r1 r2 sq sy dv tg : Byte) (v : List Byte),
    s.cur = .c → s.cfg.profile = .pkt → s.cfg.lenMode = .raw → s.pstate = .awaitMark → v.length ≤ s.cfg.vcap →
    ∃ t, execAll (([0x7E, r0, r1, r2, sq, sy, dv, tg, BitVec.ofNat 8 v.length] ++ v).map Instr.step) s = .next t ∧
      t.portC.out = s.portC.out ++ List.replicate (8 + v.length) { st := .incomplete, data := 0 } ++
        resp .complete 0 ∧
      t.pstate = .awaitMark ∧ t.byteCnt = 0 ∧
      t.frame = { s.frame with mark := 0x7E, resv0 := r0, resv1 := r1, resv2 := r2, seq := sq, sys := sy, dev := dv,
                               tag := tg, len := BitVec.ofNat 8 v.length } ∧
      t.valueBytes v.length = v ∧ SameSession s t ∧ SameRing s t ∧ SameCrc s t

/-! ### The link session -/

/-- VERIFY (43_link_session.md R172, R173, with R170, R171 and R182): refused above `VCAP` (not under PKT); a match counts
a valid frame and takes its sequence; a mismatch counts an error; the Frame is never changed. -/
def Obligations.VerifyCountsMatchOrMismatch : Prop :=
  ∀ s : State, SpeltAs .verify 0x40 0 0 ∧ (s.cur = .c →
    (s.cfg.profile ≠ .pkt → s.cfg.vcap < s.frame.len.toNat → Refused .verify s 5) ∧
    ((s.cfg.profile = .pkt ∨
        (s.frame.len.toNat ≤ s.cfg.vcap ∧
          (if s.frame.calcFlag = 0 then s.frame.len ++ s.frame.tag
           else crc16 ([s.frame.calcFlag, s.frame.seq, s.frame.sys, s.frame.dev, s.frame.tag, s.frame.len] ++
             s.valueBytes s.frame.len.toNat)) = s.frame.ckhi ++ s.frame.cklo)) →
      ∃ t, exec .verify s = .next t ∧ t.validCount = s.validCount + 1 ∧ t.lastSeqRx = s.frame.seq ∧
        t.errorCount = s.errorCount ∧ t.lastSeqTx = s.lastSeqTx ∧ SameFrame s t ∧ SameParser s t ∧
        Answers s t (resp .valid 0) ∧ SameButLink s t) ∧
    ((s.cfg.profile ≠ .pkt ∧ s.frame.len.toNat ≤ s.cfg.vcap ∧
          (if s.frame.calcFlag = 0 then s.frame.len ++ s.frame.tag
           else crc16 ([s.frame.calcFlag, s.frame.seq, s.frame.sys, s.frame.dev, s.frame.tag, s.frame.len] ++
             s.valueBytes s.frame.len.toNat)) ≠ s.frame.ckhi ++ s.frame.cklo) →
      ∃ t, exec .verify s = .next t ∧ t.validCount = s.validCount ∧ t.lastSeqRx = s.lastSeqRx ∧
        t.errorCount = s.errorCount + 1 ∧ t.lastSeqTx = s.lastSeqTx ∧ SameFrame s t ∧ SameParser s t ∧
        Answers s t (resp .error 2) ∧ SameButLink s t))

/-- PACK (43_link_session.md R176, R177, R178, R183): refused under PKT (reason 4) and above `VCAP` (reason 5); otherwise
Mark, Calc, the incremented sequence, the local identity and the checksum of the registers just written are stored, and
the wire length, saturated at 255, is answered. -/
def Obligations.PackFillsTheFrame : Prop :=
  ∀ (f : Byte) (s : State), SpeltAs (.pack f) 0x41 f 0 ∧ (s.cur = .c →
    (s.cfg.profile = .pkt → Refused (.pack f) s 4) ∧
    (s.cfg.profile ≠ .pkt → s.cfg.vcap < s.frame.len.toNat → Refused (.pack f) s 5) ∧
    (s.cfg.profile ≠ .pkt → s.frame.len.toNat ≤ s.cfg.vcap →
      ∃ t, exec (.pack f) s = .next t ∧ t.frame.mark = 0x7E ∧ t.frame.calcFlag = f ∧
        t.lastSeqTx = s.lastSeqTx + 1 ∧ t.frame.seq = s.lastSeqTx + 1 ∧ t.frame.sys = s.cfg.localSys ∧
        t.frame.dev = s.cfg.localDev ∧ t.frame.tag = s.frame.tag ∧ t.frame.len = s.frame.len ∧
        t.frame.resv0 = s.frame.resv0 ∧ t.frame.resv1 = s.frame.resv1 ∧ t.frame.resv2 = s.frame.resv2 ∧
        t.frame.ckhi ++ t.frame.cklo =
          (if f = 0 then s.frame.len ++ s.frame.tag
           else crc16 ([f, s.lastSeqTx + 1, s.cfg.localSys, s.cfg.localDev, s.frame.tag, s.frame.len] ++
             s.valueBytes s.frame.len.toNat)) ∧
        SameValue s t ∧ t.lastSeqRx = s.lastSeqRx ∧ t.errorCount = s.errorCount ∧ t.validCount = s.validCount ∧
        SameParser s t ∧ Answers s t (resp .ok (BitVec.ofNat 32 (min (9 + s.frame.len.toNat) 255))) ∧
        SameButLink s t))

/-- TXB (43_link_session.md R180, the spec's decision D34; 30_encoding.md R90, which the spec marks as its own derivation
from R86 and R87): refused under PKT, above `VCAP`, past the image, in that order; otherwise byte `imm` of the wire image,
written here as the list of bytes the profile's layout names. -/
def Obligations.TxbReadsTheWireImage : Prop :=
  ∀ (i : Half) (s : State), SpeltAs (.txb i) 0x42 0 i ∧ (s.cur = .c →
    (s.cfg.profile = .pkt → Refused (.txb i) s 4) ∧
    (s.cfg.profile ≠ .pkt → s.cfg.vcap < s.frame.len.toNat → Refused (.txb i) s 5) ∧
    (s.cfg.profile ≠ .pkt → s.frame.len.toNat ≤ s.cfg.vcap → 9 + s.frame.len.toNat ≤ i.toNat →
      Refused (.txb i) s 6) ∧
    (s.cfg.profile = .trailer → s.frame.len.toNat ≤ s.cfg.vcap → ∀ b,
      ([s.frame.mark, s.frame.calcFlag, s.frame.seq, s.frame.sys, s.frame.dev, s.frame.tag, s.frame.len] ++
        s.valueBytes s.frame.len.toNat ++ [s.frame.cklo, s.frame.ckhi])[i.toNat]? = some b →
      Completes (.txb i) s (resp .ok (b.setWidth 32))) ∧
    (s.cfg.profile = .header → s.frame.len.toNat ≤ s.cfg.vcap → ∀ b,
      ([s.frame.mark, s.frame.cklo, s.frame.ckhi, s.frame.calcFlag, s.frame.seq, s.frame.sys, s.frame.dev,
        s.frame.tag, s.frame.len] ++ s.valueBytes s.frame.len.toNat)[i.toNat]? = some b →
      Completes (.txb i) s (resp .ok (b.setWidth 32))))

/-- CLRCNT (43_link_session.md R181): the four session counters become 0 and nothing else changes. -/
def Obligations.ClrcntClearsTheFourCounters : Prop :=
  ∀ s : State, SpeltAs .clrcnt 0x43 0 0 ∧ (s.cur = .c →
    ∃ t, exec .clrcnt s = .next t ∧ t.lastSeqRx = 0 ∧ t.lastSeqTx = 0 ∧ t.errorCount = 0 ∧ t.validCount = 0 ∧
      SameFrame s t ∧ SameParser s t ∧ Answers s t (resp .ok 0) ∧ SameButLink s t)

/-- 43_link_session.md R179: what PACK produced on a sender, fed byte by byte to a receiver of the same profile that is
in AwaitMark and can hold the value, completes on the last byte and no earlier, verifies VALID, and leaves the sender's
fields and value in the receiver, for the CRC and the placeholder alike. -/
def Obligations.PackedFrameRoundTrips : Prop :=
  ∀ (s t r : State) (f : Byte),
    s.cur = .c → s.cfg.profile ≠ .pkt → s.frame.len.toNat ≤ s.cfg.vcap → exec (.pack f) s = .next t →
    r.cur = .c → r.cfg.profile = s.cfg.profile → r.pstate = .awaitMark → s.frame.len.toNat ≤ r.cfg.vcap →
    ∃ u v, execAll ((List.range (9 + t.frame.len.toNat)).map (fun i => Instr.step (t.wire i))) r = .next u ∧
      u.portC.out = r.portC.out ++ List.replicate (8 + t.frame.len.toNat) { st := .incomplete, data := 0 } ++
        resp .complete 0 ∧
      exec .verify u = .next v ∧ v.portC.out = u.portC.out ++ resp .valid 0 ∧
      v.validCount = r.validCount + 1 ∧ v.errorCount = r.errorCount ∧ v.lastSeqRx = t.frame.seq ∧
      v.frame = { t.frame with resv0 := r.frame.resv0, resv1 := r.frame.resv1, resv2 := r.frame.resv2 } ∧
      v.valueBytes t.frame.len.toNat = t.valueBytes t.frame.len.toNat

/-- 10_state.md R30, 43_link_session.md R174: who writes the session counters, and how. `LAST_SEQ_RX` moves only with a
counted valid frame, to that frame's sequence. -/
def Obligations.SessionCountersMoveOnlyAsListed : Prop :=
  ∀ (i : Instr) (s t : State), exec i s = .next t → i ≠ .clrcnt →
    ((∀ f, i ≠ .pack f) → t.lastSeqTx = s.lastSeqTx) ∧
    (t.lastSeqTx = s.lastSeqTx ∨ t.lastSeqTx = s.lastSeqTx + 1) ∧
    ((i ≠ .verify ∧ i ≠ .decode1 ∧ i ≠ .process) → t.validCount = s.validCount ∧ t.lastSeqRx = s.lastSeqRx) ∧
    ((t.validCount = s.validCount ∧ t.lastSeqRx = s.lastSeqRx) ∨
      (t.validCount = s.validCount + 1 ∧ t.lastSeqRx = t.frame.seq ∧ t.errorCount = s.errorCount)) ∧
    (t.errorCount = s.errorCount ∨ (t.errorCount = s.errorCount + 1 ∧ t.validCount = s.validCount ∧
      ((∃ b, i = .step b) ∨ i = .verify ∨ i = .decode1 ∨ i = .process)))

/-! ### The decode adapter -/

/-- DECODE1 (44_decode_adapter.md R190): nothing on an empty ring; otherwise one byte is popped and parsed, and the
parser's result, or verify's on a completed frame, is answered; no HANDLE event. `verify()` (43_link_session.md R172)
cannot refuse here; that where its guard trips all the same the frame is a mismatch is the model's choice (log 13,
CompletedFrameAboveCapacityIsRejected). -/
def Obligations.DecodeOnePopsParsesAndVerifies : Prop :=
  ∀ s : State, SpeltAs .decode1 0x50 0 0 ∧ (s.cur = .c →
    (s.head = s.tail → Completes .decode1 s (resp .none 0)) ∧
    (s.head ≠ s.tail → ∀ (u v : State) (x : ParseResult) (y : Verdict),
      State.parse { s with head := s.head + 1 } (s.rbRead (s.phys s.head)) = (u, x) → u.verifyCompleted = (v, y) →
      (x = .incomplete → ∃ t, exec .decode1 s = .next t ∧ OnlyAnswers u t (resp .incomplete 0)) ∧
      (x = .error .frameOverflow → ∃ t, exec .decode1 s = .next t ∧ OnlyAnswers u t (resp .error 1)) ∧
      (x = .error .invalidAsciiDigit → ∃ t, exec .decode1 s = .next t ∧ OnlyAnswers u t (resp .error 3)) ∧
      (x = .complete → y = .valid → ∃ t, exec .decode1 s = .next t ∧ OnlyAnswers v t (resp .valid 0)) ∧
      (x = .complete → y = .mismatch → ∃ t, exec .decode1 s = .next t ∧ OnlyAnswers v t (resp .error 2)) ∧
      (u.cfg.profile = .pkt ∨ u.frame.len.toNat ≤ u.cfg.vcap → u.verify = some (v, y)) ∧
      (u.cfg.profile ≠ .pkt → u.cfg.vcap < u.frame.len.toNat → v = u.countError ∧ y = .mismatch) ∧
      u.head = s.head + 1 ∧ u.tail = s.tail ∧ (∀ a, u.rbRead a = s.rbRead a) ∧ SameCrc s u ∧ SameBusy s u ∧
      SameEvents s u ∧ SameOutside s u))

/-- PROCESS, one micro-operation (44_decode_adapter.md R192, R195; one atomic part a step, log 3): the answer on an empty
ring; otherwise one byte is popped and parsed, and a frame that completed and verified is handed to the handler; errors
answer nothing and PROCESS goes on. `verify()` cannot refuse here (R190); that where its guard trips all the same the
frame is a mismatch is the model's choice (log 13). -/
def Obligations.ProcessHandsValidFramesToTheHandler : Prop :=
  ∀ s : State, SpeltAs .process 0x51 0 0 ∧ (s.cur = .c →
    (s.head = s.tail → ∃ t, exec .process s = .next t ∧ t.portC.busy = none ∧ Answers s t (resp .ok 0) ∧
      SameRing s t ∧ SameButRingAndBusy s t) ∧
    (s.head ≠ s.tail → ∀ (u v : State) (x : ParseResult) (y : Verdict),
      State.parse { s with head := s.head + 1 } (s.rbRead (s.phys s.head)) = (u, x) → u.verifyCompleted = (v, y) →
      (x ≠ .complete → ∃ t, exec .process s = .next t ∧ t.portC.busy = some .process ∧ Answers u t [] ∧
        SameRing u t ∧ SameButRingAndBusy u t) ∧
      (x = .complete → y = .mismatch → ∃ t, exec .process s = .next t ∧ t.portC.busy = some .process ∧
        Answers v t [] ∧ SameRing v t ∧ SameButRingAndBusy v t) ∧
      (x = .complete → y = .valid → ∃ t, exec .process s = .next t ∧ t.portC.busy = some .process ∧
        Answers v t [] ∧ SameRing v t ∧ SameCrc v t ∧ SameFrame v t ∧ SameSession v t ∧ SameParser v t ∧
        SameOutside v t ∧
        t.handled = s.handled ++ [{ regs := u.frame, value := u.valueBytes u.frame.len.toNat }]) ∧
      (u.cfg.profile = .pkt ∨ u.frame.len.toNat ≤ u.cfg.vcap → u.verify = some (v, y)) ∧
      (u.cfg.profile ≠ .pkt → u.cfg.vcap < u.frame.len.toNat → v = u.countError ∧ y = .mismatch)))

/-- The one case 44_decode_adapter.md R190 and 10_state.md R28 hold impossible: a TRAILER frame that completes with
`F.LEN > VCAP`, written by WRF after the value. The length is checked before the value is walked (R28). The model's choice
(log 13): the frame is a mismatch, never VALID and never ILLEGAL; DECODE1 answers ERROR 2, PROCESS hands nothing over and
goes on. -/
def Obligations.CompletedFrameAboveCapacityIsRejected : Prop :=
  ∀ (s u : State), s.cur = .c → s.head ≠ s.tail → s.cfg.profile = .trailer →
    State.parse { s with head := s.head + 1 } (s.rbRead (s.phys s.head)) = (u, .complete) →
    s.cfg.vcap < u.frame.len.toNat →
    (∃ t, exec .decode1 s = .next t ∧ t.errorCount = s.errorCount + 1 ∧ OnlyAnswers u.countError t (resp .error 2)) ∧
    (∃ t, exec .process s = .next t ∧ t.errorCount = s.errorCount + 1 ∧ t.portC.busy = some .process ∧
      Answers u.countError t [] ∧ SameRing u.countError t ∧ SameButRingAndBusy u.countError t)

/-- 60_exceptions.md R230, 44_decode_adapter.md R195: only PROCESS emits HANDLE events, one at a time, and only with a
frame it has just counted valid. The snapshot's value lies within the value buffer (10_state.md R28), from every
state; where a WRF has broken R28 this rests on log 13. -/
def Obligations.OnlyProcessEmitsEvents : Prop :=
  ∀ (i : Instr) (s t : State), exec i s = .next t →
    t.handled = s.handled ∨
    (i = .process ∧ t.validCount = s.validCount + 1 ∧ t.frame.len.toNat ≤ s.cfg.vcap ∧
      t.handled = s.handled ++ [{ regs := t.frame, value := t.valueBytes t.frame.len.toNat }])

/-- 44_decode_adapter.md R199: with no producer activity PROCESS changes the state exactly as DRAIN (DECODE1 until NONE)
does; they differ in events and answers only. DRAIN stops with the first NONE (30_encoding.md R84), after `used() + 1`
DECODE1s. That PROCESS takes one part a byte and a last one for its answer is the model's choice (log 3). -/
def Obligations.ProcessEqualsDrain : Prop :=
  ∀ s : State, s.Inv → s.cur = .c → s.portC.busy = none →
    ∃ t u, execAll (List.replicate (s.usedCount.toNat + 1) .process) s = .next t ∧
      pseudoDrain s = some (.next u) ∧ execAll (List.replicate (s.usedCount.toNat + 1) .decode1) s = .next u ∧
      SameRing u t ∧ SameCrc u t ∧ SameFrame u t ∧ SameSession u t ∧ SameParser u t ∧ SameBusy u t ∧
      SameOutside u t ∧ t.head = t.tail ∧ t.portC.out = s.portC.out ++ resp .ok 0 ∧
      (∃ rs, u.portC.out = s.portC.out ++ rs ++ resp .none 0 ∧ rs.length = s.usedCount.toNat ∧
        ∀ x ∈ rs, x.st ≠ .none) ∧ u.handled = s.handled

/-! ### Register and buffer access -/

/-- RDF and WRF (45_register_access.md R200, R201; the spec's decision D35): the twelve registers, the range, WRF's
must-be-zero half (such a beat is answered ILLEGAL 2: UndecodableBeatIsAnsweredIllegal), and the one refusal of a write
to `F.LEN`. -/
def Obligations.FrameRegistersReadAndWrite : Prop :=
  ∀ (a v : Byte) (s : State), SpeltAs (.rdf a) 0x60 a 0 ∧ SpeltAs (.wrf a v) 0x61 a (v.setWidth 16) ∧
    (∀ imm : Half, imm.extractLsb' 8 8 ≠ 0 → decode [((0x61 : Byte) ++ a) ++ imm] = .illegal .mustBeZero []) ∧
    (s.cur = .c →
    (11 < a.toNat → Refused (.rdf a) s 6 ∧ Refused (.wrf a v) s 6) ∧
    (a = 6 → s.pstate = .awaitValue → Refused (.wrf a v) s 7) ∧
    (∀ r, [FReg.mark, .calcFlag, .seq, .sys, .dev, .tag, .len, .cklo, .ckhi, .resv0, .resv1, .resv2][a.toNat]? =
        some r →
      Completes (.rdf a) s (resp .ok ((s.frame.get r).setWidth 32)) ∧
      (¬ (a = 6 ∧ s.pstate = .awaitValue) →
        ∃ t, exec (.wrf a v) s = .next t ∧ OneRegister s t r v ∧ SameValue s t ∧ SameSession s t ∧ SameParser s t ∧
          Answers s t (resp .ok 0) ∧ SameButLink s t)))

/-- RDV and WRV (45_register_access.md R202, R203; the spec's decision D35): the bound is `VCAP`. -/
def Obligations.ValueBufferReadsAndWrites : Prop :=
  ∀ (i : Half) (b : Byte) (s : State), SpeltAs (.rdv i) 0x62 0 i ∧ SpeltAs (.wrv b i) 0x63 b i ∧ (s.cur = .c →
    (s.cfg.vcap ≤ i.toNat → Refused (.rdv i) s 6 ∧ Refused (.wrv b i) s 6) ∧
    (i.toNat < s.cfg.vcap →
      Completes (.rdv i) s (resp .ok ((s.valRead i.toNat).setWidth 32)) ∧
      ∃ t, exec (.wrv b i) s = .next t ∧ t.frame = s.frame ∧ t.valRead i.toNat = b ∧
        (∀ a, a ≠ i.toNat → t.valRead a = s.valRead a) ∧ SameSession s t ∧ SameParser s t ∧
        Answers s t (resp .ok 0) ∧ SameButLink s t))

/-- RDS (45_register_access.md R204, 10_state.md R30; the spec's decisions D13, D35): the fourteen registers, on either
port; nothing changes. -/
def Obligations.SessionRegistersAreReadable : Prop :=
  ∀ (a : Byte) (s : State), SpeltAs (.rds a) 0x64 a 0 ∧
    (13 < a.toNat → Refused (.rds a) s 6) ∧
    (∀ d : Word, [s.cfg.localSys.setWidth 32, s.cfg.localDev.setWidth 32, s.lastSeqRx.setWidth 32,
        s.lastSeqTx.setWidth 32, s.errorCount, s.validCount,
        (match s.pstate with
          | .awaitMark => 0 | .awaitCalc => 1 | .awaitSeq => 2 | .awaitSys => 3 | .awaitDev => 4 | .awaitTag => 5
          | .awaitLen => 6 | .awaitValue => 7 | .awaitChecksumLow => 8 | .awaitChecksumHigh => 9
          | .awaitResv0 => 10 | .awaitResv1 => 11 | .awaitResv2 => 12),
        s.byteCnt.setWidth 32, BitVec.ofNat 32 (2 ^ s.cfg.k), BitVec.ofNat 32 s.cfg.vcap,
        (match s.cfg.profile with | .trailer => 0 | .header => 1 | .pkt => 2),
        (match s.cfg.lenMode with | .raw => 0 | .ascii => 1), s.head, s.tail][a.toNat]? = some d →
      Completes (.rds a) s (resp .ok d))
end

