-- ==== Sys2Proof/Laws/State.lean ====
section
/-! SUPPORT. One lemma per field per update of State, true by rfl: later proofs never unfold a record update. -/

namespace Sys2Proof.Machine

variable (s : State)

/-! ### setPort -/

@[simp] theorem State.setPort_cfg (q : Port) (x : PortState) : (s.setPort q x).cfg = s.cfg := rfl
@[simp] theorem State.setPort_rb (q : Port) (x : PortState) : (s.setPort q x).rb = s.rb := rfl
@[simp] theorem State.setPort_head (q : Port) (x : PortState) : (s.setPort q x).head = s.head := rfl
@[simp] theorem State.setPort_tail (q : Port) (x : PortState) : (s.setPort q x).tail = s.tail := rfl
@[simp] theorem State.setPort_crc (q : Port) (x : PortState) : (s.setPort q x).crc = s.crc := rfl
@[simp] theorem State.setPort_frame (q : Port) (x : PortState) : (s.setPort q x).frame = s.frame := rfl
@[simp] theorem State.setPort_val (q : Port) (x : PortState) : (s.setPort q x).val = s.val := rfl
@[simp] theorem State.setPort_lastSeqRx (q : Port) (x : PortState) : (s.setPort q x).lastSeqRx = s.lastSeqRx := rfl
@[simp] theorem State.setPort_lastSeqTx (q : Port) (x : PortState) : (s.setPort q x).lastSeqTx = s.lastSeqTx := rfl
@[simp] theorem State.setPort_errorCount (q : Port) (x : PortState) : (s.setPort q x).errorCount = s.errorCount := rfl
@[simp] theorem State.setPort_validCount (q : Port) (x : PortState) : (s.setPort q x).validCount = s.validCount := rfl
@[simp] theorem State.setPort_pstate (q : Port) (x : PortState) : (s.setPort q x).pstate = s.pstate := rfl
@[simp] theorem State.setPort_byteCnt (q : Port) (x : PortState) : (s.setPort q x).byteCnt = s.byteCnt := rfl
@[simp] theorem State.setPort_handled (q : Port) (x : PortState) : (s.setPort q x).handled = s.handled := rfl
@[simp] theorem State.setPort_cur (q : Port) (x : PortState) : (s.setPort q x).cur = s.cur := rfl
@[simp] theorem State.setPort_grants (q : Port) (x : PortState) : (s.setPort q x).grants = s.grants := rfl
@[simp] theorem State.setPort_draws (q : Port) (x : PortState) : (s.setPort q x).draws = s.draws := rfl
@[simp] theorem State.setPort_epoch (q : Port) (x : PortState) : (s.setPort q x).epoch = s.epoch := rfl
@[simp] theorem State.setPort_resetReq (q : Port) (x : PortState) : (s.setPort q x).resetReq = s.resetReq := rfl

/-! ### setRunning -/

@[simp] theorem State.setRunning_cfg (r : Option Running) : (s.setRunning r).cfg = s.cfg := rfl
@[simp] theorem State.setRunning_rb (r : Option Running) : (s.setRunning r).rb = s.rb := rfl
@[simp] theorem State.setRunning_head (r : Option Running) : (s.setRunning r).head = s.head := rfl
@[simp] theorem State.setRunning_tail (r : Option Running) : (s.setRunning r).tail = s.tail := rfl
@[simp] theorem State.setRunning_crc (r : Option Running) : (s.setRunning r).crc = s.crc := rfl
@[simp] theorem State.setRunning_frame (r : Option Running) : (s.setRunning r).frame = s.frame := rfl
@[simp] theorem State.setRunning_val (r : Option Running) : (s.setRunning r).val = s.val := rfl
@[simp] theorem State.setRunning_lastSeqRx (r : Option Running) : (s.setRunning r).lastSeqRx = s.lastSeqRx := rfl
@[simp] theorem State.setRunning_lastSeqTx (r : Option Running) : (s.setRunning r).lastSeqTx = s.lastSeqTx := rfl
@[simp] theorem State.setRunning_errorCount (r : Option Running) : (s.setRunning r).errorCount = s.errorCount := rfl
@[simp] theorem State.setRunning_validCount (r : Option Running) : (s.setRunning r).validCount = s.validCount := rfl
@[simp] theorem State.setRunning_pstate (r : Option Running) : (s.setRunning r).pstate = s.pstate := rfl
@[simp] theorem State.setRunning_byteCnt (r : Option Running) : (s.setRunning r).byteCnt = s.byteCnt := rfl
@[simp] theorem State.setRunning_handled (r : Option Running) : (s.setRunning r).handled = s.handled := rfl
@[simp] theorem State.setRunning_cur (r : Option Running) : (s.setRunning r).cur = s.cur := rfl
@[simp] theorem State.setRunning_grants (r : Option Running) : (s.setRunning r).grants = s.grants := rfl
@[simp] theorem State.setRunning_draws (r : Option Running) : (s.setRunning r).draws = s.draws := rfl
@[simp] theorem State.setRunning_epoch (r : Option Running) : (s.setRunning r).epoch = s.epoch := rfl
@[simp] theorem State.setRunning_resetReq (r : Option Running) : (s.setRunning r).resetReq = s.resetReq := rfl

/-! ### respondAll -/

@[simp] theorem State.respondAll_cfg (rs : List Resp) : (s.respondAll rs).cfg = s.cfg := rfl
@[simp] theorem State.respondAll_rb (rs : List Resp) : (s.respondAll rs).rb = s.rb := rfl
@[simp] theorem State.respondAll_head (rs : List Resp) : (s.respondAll rs).head = s.head := rfl
@[simp] theorem State.respondAll_tail (rs : List Resp) : (s.respondAll rs).tail = s.tail := rfl
@[simp] theorem State.respondAll_crc (rs : List Resp) : (s.respondAll rs).crc = s.crc := rfl
@[simp] theorem State.respondAll_frame (rs : List Resp) : (s.respondAll rs).frame = s.frame := rfl
@[simp] theorem State.respondAll_val (rs : List Resp) : (s.respondAll rs).val = s.val := rfl
@[simp] theorem State.respondAll_lastSeqRx (rs : List Resp) : (s.respondAll rs).lastSeqRx = s.lastSeqRx := rfl
@[simp] theorem State.respondAll_lastSeqTx (rs : List Resp) : (s.respondAll rs).lastSeqTx = s.lastSeqTx := rfl
@[simp] theorem State.respondAll_errorCount (rs : List Resp) : (s.respondAll rs).errorCount = s.errorCount := rfl
@[simp] theorem State.respondAll_validCount (rs : List Resp) : (s.respondAll rs).validCount = s.validCount := rfl
@[simp] theorem State.respondAll_pstate (rs : List Resp) : (s.respondAll rs).pstate = s.pstate := rfl
@[simp] theorem State.respondAll_byteCnt (rs : List Resp) : (s.respondAll rs).byteCnt = s.byteCnt := rfl
@[simp] theorem State.respondAll_handled (rs : List Resp) : (s.respondAll rs).handled = s.handled := rfl
@[simp] theorem State.respondAll_cur (rs : List Resp) : (s.respondAll rs).cur = s.cur := rfl
@[simp] theorem State.respondAll_grants (rs : List Resp) : (s.respondAll rs).grants = s.grants := rfl
@[simp] theorem State.respondAll_draws (rs : List Resp) : (s.respondAll rs).draws = s.draws := rfl
@[simp] theorem State.respondAll_epoch (rs : List Resp) : (s.respondAll rs).epoch = s.epoch := rfl
@[simp] theorem State.respondAll_resetReq (rs : List Resp) : (s.respondAll rs).resetReq = s.resetReq := rfl

/-! ### respond -/

@[simp] theorem State.respond_cfg (st : Status) (d : Word) : (s.respond st d).cfg = s.cfg := rfl
@[simp] theorem State.respond_rb (st : Status) (d : Word) : (s.respond st d).rb = s.rb := rfl
@[simp] theorem State.respond_head (st : Status) (d : Word) : (s.respond st d).head = s.head := rfl
@[simp] theorem State.respond_tail (st : Status) (d : Word) : (s.respond st d).tail = s.tail := rfl
@[simp] theorem State.respond_crc (st : Status) (d : Word) : (s.respond st d).crc = s.crc := rfl
@[simp] theorem State.respond_frame (st : Status) (d : Word) : (s.respond st d).frame = s.frame := rfl
@[simp] theorem State.respond_val (st : Status) (d : Word) : (s.respond st d).val = s.val := rfl
@[simp] theorem State.respond_lastSeqRx (st : Status) (d : Word) : (s.respond st d).lastSeqRx = s.lastSeqRx := rfl
@[simp] theorem State.respond_lastSeqTx (st : Status) (d : Word) : (s.respond st d).lastSeqTx = s.lastSeqTx := rfl
@[simp] theorem State.respond_errorCount (st : Status) (d : Word) : (s.respond st d).errorCount = s.errorCount := rfl
@[simp] theorem State.respond_validCount (st : Status) (d : Word) : (s.respond st d).validCount = s.validCount := rfl
@[simp] theorem State.respond_pstate (st : Status) (d : Word) : (s.respond st d).pstate = s.pstate := rfl
@[simp] theorem State.respond_byteCnt (st : Status) (d : Word) : (s.respond st d).byteCnt = s.byteCnt := rfl
@[simp] theorem State.respond_handled (st : Status) (d : Word) : (s.respond st d).handled = s.handled := rfl
@[simp] theorem State.respond_cur (st : Status) (d : Word) : (s.respond st d).cur = s.cur := rfl
@[simp] theorem State.respond_grants (st : Status) (d : Word) : (s.respond st d).grants = s.grants := rfl
@[simp] theorem State.respond_draws (st : Status) (d : Word) : (s.respond st d).draws = s.draws := rfl
@[simp] theorem State.respond_epoch (st : Status) (d : Word) : (s.respond st d).epoch = s.epoch := rfl
@[simp] theorem State.respond_resetReq (st : Status) (d : Word) : (s.respond st d).resetReq = s.resetReq := rfl

/-! ### illegal -/

@[simp] theorem State.illegal_cfg (r : Reason) : (s.illegal r).cfg = s.cfg := rfl
@[simp] theorem State.illegal_rb (r : Reason) : (s.illegal r).rb = s.rb := rfl
@[simp] theorem State.illegal_head (r : Reason) : (s.illegal r).head = s.head := rfl
@[simp] theorem State.illegal_tail (r : Reason) : (s.illegal r).tail = s.tail := rfl
@[simp] theorem State.illegal_crc (r : Reason) : (s.illegal r).crc = s.crc := rfl
@[simp] theorem State.illegal_frame (r : Reason) : (s.illegal r).frame = s.frame := rfl
@[simp] theorem State.illegal_val (r : Reason) : (s.illegal r).val = s.val := rfl
@[simp] theorem State.illegal_lastSeqRx (r : Reason) : (s.illegal r).lastSeqRx = s.lastSeqRx := rfl
@[simp] theorem State.illegal_lastSeqTx (r : Reason) : (s.illegal r).lastSeqTx = s.lastSeqTx := rfl
@[simp] theorem State.illegal_errorCount (r : Reason) : (s.illegal r).errorCount = s.errorCount := rfl
@[simp] theorem State.illegal_validCount (r : Reason) : (s.illegal r).validCount = s.validCount := rfl
@[simp] theorem State.illegal_pstate (r : Reason) : (s.illegal r).pstate = s.pstate := rfl
@[simp] theorem State.illegal_byteCnt (r : Reason) : (s.illegal r).byteCnt = s.byteCnt := rfl
@[simp] theorem State.illegal_handled (r : Reason) : (s.illegal r).handled = s.handled := rfl
@[simp] theorem State.illegal_cur (r : Reason) : (s.illegal r).cur = s.cur := rfl
@[simp] theorem State.illegal_grants (r : Reason) : (s.illegal r).grants = s.grants := rfl
@[simp] theorem State.illegal_draws (r : Reason) : (s.illegal r).draws = s.draws := rfl
@[simp] theorem State.illegal_epoch (r : Reason) : (s.illegal r).epoch = s.epoch := rfl
@[simp] theorem State.illegal_resetReq (r : Reason) : (s.illegal r).resetReq = s.resetReq := rfl

/-! ### setF -/

@[simp] theorem State.setF_cfg (r : FReg) (v : Byte) : (s.setF r v).cfg = s.cfg := rfl
@[simp] theorem State.setF_rb (r : FReg) (v : Byte) : (s.setF r v).rb = s.rb := rfl
@[simp] theorem State.setF_head (r : FReg) (v : Byte) : (s.setF r v).head = s.head := rfl
@[simp] theorem State.setF_tail (r : FReg) (v : Byte) : (s.setF r v).tail = s.tail := rfl
@[simp] theorem State.setF_crc (r : FReg) (v : Byte) : (s.setF r v).crc = s.crc := rfl
@[simp] theorem State.setF_frame (r : FReg) (v : Byte) : (s.setF r v).frame = s.frame.set r v := rfl
@[simp] theorem State.setF_val (r : FReg) (v : Byte) : (s.setF r v).val = s.val := rfl
@[simp] theorem State.setF_lastSeqRx (r : FReg) (v : Byte) : (s.setF r v).lastSeqRx = s.lastSeqRx := rfl
@[simp] theorem State.setF_lastSeqTx (r : FReg) (v : Byte) : (s.setF r v).lastSeqTx = s.lastSeqTx := rfl
@[simp] theorem State.setF_errorCount (r : FReg) (v : Byte) : (s.setF r v).errorCount = s.errorCount := rfl
@[simp] theorem State.setF_validCount (r : FReg) (v : Byte) : (s.setF r v).validCount = s.validCount := rfl
@[simp] theorem State.setF_pstate (r : FReg) (v : Byte) : (s.setF r v).pstate = s.pstate := rfl
@[simp] theorem State.setF_byteCnt (r : FReg) (v : Byte) : (s.setF r v).byteCnt = s.byteCnt := rfl
@[simp] theorem State.setF_portP (r : FReg) (v : Byte) : (s.setF r v).portP = s.portP := rfl
@[simp] theorem State.setF_portC (r : FReg) (v : Byte) : (s.setF r v).portC = s.portC := rfl
@[simp] theorem State.setF_handled (r : FReg) (v : Byte) : (s.setF r v).handled = s.handled := rfl
@[simp] theorem State.setF_cur (r : FReg) (v : Byte) : (s.setF r v).cur = s.cur := rfl
@[simp] theorem State.setF_grants (r : FReg) (v : Byte) : (s.setF r v).grants = s.grants := rfl
@[simp] theorem State.setF_draws (r : FReg) (v : Byte) : (s.setF r v).draws = s.draws := rfl
@[simp] theorem State.setF_epoch (r : FReg) (v : Byte) : (s.setF r v).epoch = s.epoch := rfl
@[simp] theorem State.setF_resetReq (r : FReg) (v : Byte) : (s.setF r v).resetReq = s.resetReq := rfl

/-! ### valWrite -/

@[simp] theorem State.valWrite_cfg (a : Nat) (b : Byte) : (s.valWrite a b).cfg = s.cfg := rfl
@[simp] theorem State.valWrite_rb (a : Nat) (b : Byte) : (s.valWrite a b).rb = s.rb := rfl
@[simp] theorem State.valWrite_head (a : Nat) (b : Byte) : (s.valWrite a b).head = s.head := rfl
@[simp] theorem State.valWrite_tail (a : Nat) (b : Byte) : (s.valWrite a b).tail = s.tail := rfl
@[simp] theorem State.valWrite_crc (a : Nat) (b : Byte) : (s.valWrite a b).crc = s.crc := rfl
@[simp] theorem State.valWrite_frame (a : Nat) (b : Byte) : (s.valWrite a b).frame = s.frame := rfl
@[simp] theorem State.valWrite_val (a : Nat) (b : Byte) : (s.valWrite a b).val = s.val.set a b := rfl
@[simp] theorem State.valWrite_lastSeqRx (a : Nat) (b : Byte) : (s.valWrite a b).lastSeqRx = s.lastSeqRx := rfl
@[simp] theorem State.valWrite_lastSeqTx (a : Nat) (b : Byte) : (s.valWrite a b).lastSeqTx = s.lastSeqTx := rfl
@[simp] theorem State.valWrite_errorCount (a : Nat) (b : Byte) : (s.valWrite a b).errorCount = s.errorCount := rfl
@[simp] theorem State.valWrite_validCount (a : Nat) (b : Byte) : (s.valWrite a b).validCount = s.validCount := rfl
@[simp] theorem State.valWrite_pstate (a : Nat) (b : Byte) : (s.valWrite a b).pstate = s.pstate := rfl
@[simp] theorem State.valWrite_byteCnt (a : Nat) (b : Byte) : (s.valWrite a b).byteCnt = s.byteCnt := rfl
@[simp] theorem State.valWrite_portP (a : Nat) (b : Byte) : (s.valWrite a b).portP = s.portP := rfl
@[simp] theorem State.valWrite_portC (a : Nat) (b : Byte) : (s.valWrite a b).portC = s.portC := rfl
@[simp] theorem State.valWrite_handled (a : Nat) (b : Byte) : (s.valWrite a b).handled = s.handled := rfl
@[simp] theorem State.valWrite_cur (a : Nat) (b : Byte) : (s.valWrite a b).cur = s.cur := rfl
@[simp] theorem State.valWrite_grants (a : Nat) (b : Byte) : (s.valWrite a b).grants = s.grants := rfl
@[simp] theorem State.valWrite_draws (a : Nat) (b : Byte) : (s.valWrite a b).draws = s.draws := rfl
@[simp] theorem State.valWrite_epoch (a : Nat) (b : Byte) : (s.valWrite a b).epoch = s.epoch := rfl
@[simp] theorem State.valWrite_resetReq (a : Nat) (b : Byte) : (s.valWrite a b).resetReq = s.resetReq := rfl

/-! ### pushByte -/

@[simp] theorem State.pushByte_cfg (b : Byte) : (s.pushByte b).cfg = s.cfg := rfl
@[simp] theorem State.pushByte_rb (b : Byte) : (s.pushByte b).rb = s.rb.set (s.phys s.tail) b := rfl
@[simp] theorem State.pushByte_head (b : Byte) : (s.pushByte b).head = s.head := rfl
@[simp] theorem State.pushByte_tail (b : Byte) : (s.pushByte b).tail = s.tail + 1 := rfl
@[simp] theorem State.pushByte_crc (b : Byte) : (s.pushByte b).crc = s.crc := rfl
@[simp] theorem State.pushByte_frame (b : Byte) : (s.pushByte b).frame = s.frame := rfl
@[simp] theorem State.pushByte_val (b : Byte) : (s.pushByte b).val = s.val := rfl
@[simp] theorem State.pushByte_lastSeqRx (b : Byte) : (s.pushByte b).lastSeqRx = s.lastSeqRx := rfl
@[simp] theorem State.pushByte_lastSeqTx (b : Byte) : (s.pushByte b).lastSeqTx = s.lastSeqTx := rfl
@[simp] theorem State.pushByte_errorCount (b : Byte) : (s.pushByte b).errorCount = s.errorCount := rfl
@[simp] theorem State.pushByte_validCount (b : Byte) : (s.pushByte b).validCount = s.validCount := rfl
@[simp] theorem State.pushByte_pstate (b : Byte) : (s.pushByte b).pstate = s.pstate := rfl
@[simp] theorem State.pushByte_byteCnt (b : Byte) : (s.pushByte b).byteCnt = s.byteCnt := rfl
@[simp] theorem State.pushByte_portP (b : Byte) : (s.pushByte b).portP = s.portP := rfl
@[simp] theorem State.pushByte_portC (b : Byte) : (s.pushByte b).portC = s.portC := rfl
@[simp] theorem State.pushByte_handled (b : Byte) : (s.pushByte b).handled = s.handled := rfl
@[simp] theorem State.pushByte_cur (b : Byte) : (s.pushByte b).cur = s.cur := rfl
@[simp] theorem State.pushByte_grants (b : Byte) : (s.pushByte b).grants = s.grants := rfl
@[simp] theorem State.pushByte_draws (b : Byte) : (s.pushByte b).draws = s.draws := rfl
@[simp] theorem State.pushByte_epoch (b : Byte) : (s.pushByte b).epoch = s.epoch := rfl
@[simp] theorem State.pushByte_resetReq (b : Byte) : (s.pushByte b).resetReq = s.resetReq := rfl

/-! ### emitHandle -/

@[simp] theorem State.emitHandle_cfg (x : Snapshot) : (s.emitHandle x).cfg = s.cfg := rfl
@[simp] theorem State.emitHandle_rb (x : Snapshot) : (s.emitHandle x).rb = s.rb := rfl
@[simp] theorem State.emitHandle_head (x : Snapshot) : (s.emitHandle x).head = s.head := rfl
@[simp] theorem State.emitHandle_tail (x : Snapshot) : (s.emitHandle x).tail = s.tail := rfl
@[simp] theorem State.emitHandle_crc (x : Snapshot) : (s.emitHandle x).crc = s.crc := rfl
@[simp] theorem State.emitHandle_frame (x : Snapshot) : (s.emitHandle x).frame = s.frame := rfl
@[simp] theorem State.emitHandle_val (x : Snapshot) : (s.emitHandle x).val = s.val := rfl
@[simp] theorem State.emitHandle_lastSeqRx (x : Snapshot) : (s.emitHandle x).lastSeqRx = s.lastSeqRx := rfl
@[simp] theorem State.emitHandle_lastSeqTx (x : Snapshot) : (s.emitHandle x).lastSeqTx = s.lastSeqTx := rfl
@[simp] theorem State.emitHandle_errorCount (x : Snapshot) : (s.emitHandle x).errorCount = s.errorCount := rfl
@[simp] theorem State.emitHandle_validCount (x : Snapshot) : (s.emitHandle x).validCount = s.validCount := rfl
@[simp] theorem State.emitHandle_pstate (x : Snapshot) : (s.emitHandle x).pstate = s.pstate := rfl
@[simp] theorem State.emitHandle_byteCnt (x : Snapshot) : (s.emitHandle x).byteCnt = s.byteCnt := rfl
@[simp] theorem State.emitHandle_portP (x : Snapshot) : (s.emitHandle x).portP = s.portP := rfl
@[simp] theorem State.emitHandle_portC (x : Snapshot) : (s.emitHandle x).portC = s.portC := rfl
@[simp] theorem State.emitHandle_handled (x : Snapshot) : (s.emitHandle x).handled = s.handled ++ [x] := rfl
@[simp] theorem State.emitHandle_cur (x : Snapshot) : (s.emitHandle x).cur = s.cur := rfl
@[simp] theorem State.emitHandle_grants (x : Snapshot) : (s.emitHandle x).grants = s.grants := rfl
@[simp] theorem State.emitHandle_draws (x : Snapshot) : (s.emitHandle x).draws = s.draws := rfl
@[simp] theorem State.emitHandle_epoch (x : Snapshot) : (s.emitHandle x).epoch = s.epoch := rfl
@[simp] theorem State.emitHandle_resetReq (x : Snapshot) : (s.emitHandle x).resetReq = s.resetReq := rfl

/-! ### goto -/

@[simp] theorem State.goto_cfg (q : PState) : (s.goto q).cfg = s.cfg := rfl
@[simp] theorem State.goto_rb (q : PState) : (s.goto q).rb = s.rb := rfl
@[simp] theorem State.goto_head (q : PState) : (s.goto q).head = s.head := rfl
@[simp] theorem State.goto_tail (q : PState) : (s.goto q).tail = s.tail := rfl
@[simp] theorem State.goto_crc (q : PState) : (s.goto q).crc = s.crc := rfl
@[simp] theorem State.goto_frame (q : PState) : (s.goto q).frame = s.frame := rfl
@[simp] theorem State.goto_val (q : PState) : (s.goto q).val = s.val := rfl
@[simp] theorem State.goto_lastSeqRx (q : PState) : (s.goto q).lastSeqRx = s.lastSeqRx := rfl
@[simp] theorem State.goto_lastSeqTx (q : PState) : (s.goto q).lastSeqTx = s.lastSeqTx := rfl
@[simp] theorem State.goto_errorCount (q : PState) : (s.goto q).errorCount = s.errorCount := rfl
@[simp] theorem State.goto_validCount (q : PState) : (s.goto q).validCount = s.validCount := rfl
@[simp] theorem State.goto_pstate (q : PState) : (s.goto q).pstate = q := rfl
@[simp] theorem State.goto_byteCnt (q : PState) : (s.goto q).byteCnt = s.byteCnt := rfl
@[simp] theorem State.goto_portP (q : PState) : (s.goto q).portP = s.portP := rfl
@[simp] theorem State.goto_portC (q : PState) : (s.goto q).portC = s.portC := rfl
@[simp] theorem State.goto_handled (q : PState) : (s.goto q).handled = s.handled := rfl
@[simp] theorem State.goto_cur (q : PState) : (s.goto q).cur = s.cur := rfl
@[simp] theorem State.goto_grants (q : PState) : (s.goto q).grants = s.grants := rfl
@[simp] theorem State.goto_draws (q : PState) : (s.goto q).draws = s.draws := rfl
@[simp] theorem State.goto_epoch (q : PState) : (s.goto q).epoch = s.epoch := rfl
@[simp] theorem State.goto_resetReq (q : PState) : (s.goto q).resetReq = s.resetReq := rfl

/-! ### setByteCnt -/

@[simp] theorem State.setByteCnt_cfg (n : Byte) : (s.setByteCnt n).cfg = s.cfg := rfl
@[simp] theorem State.setByteCnt_rb (n : Byte) : (s.setByteCnt n).rb = s.rb := rfl
@[simp] theorem State.setByteCnt_head (n : Byte) : (s.setByteCnt n).head = s.head := rfl
@[simp] theorem State.setByteCnt_tail (n : Byte) : (s.setByteCnt n).tail = s.tail := rfl
@[simp] theorem State.setByteCnt_crc (n : Byte) : (s.setByteCnt n).crc = s.crc := rfl
@[simp] theorem State.setByteCnt_frame (n : Byte) : (s.setByteCnt n).frame = s.frame := rfl
@[simp] theorem State.setByteCnt_val (n : Byte) : (s.setByteCnt n).val = s.val := rfl
@[simp] theorem State.setByteCnt_lastSeqRx (n : Byte) : (s.setByteCnt n).lastSeqRx = s.lastSeqRx := rfl
@[simp] theorem State.setByteCnt_lastSeqTx (n : Byte) : (s.setByteCnt n).lastSeqTx = s.lastSeqTx := rfl
@[simp] theorem State.setByteCnt_errorCount (n : Byte) : (s.setByteCnt n).errorCount = s.errorCount := rfl
@[simp] theorem State.setByteCnt_validCount (n : Byte) : (s.setByteCnt n).validCount = s.validCount := rfl
@[simp] theorem State.setByteCnt_pstate (n : Byte) : (s.setByteCnt n).pstate = s.pstate := rfl
@[simp] theorem State.setByteCnt_byteCnt (n : Byte) : (s.setByteCnt n).byteCnt = n := rfl
@[simp] theorem State.setByteCnt_portP (n : Byte) : (s.setByteCnt n).portP = s.portP := rfl
@[simp] theorem State.setByteCnt_portC (n : Byte) : (s.setByteCnt n).portC = s.portC := rfl
@[simp] theorem State.setByteCnt_handled (n : Byte) : (s.setByteCnt n).handled = s.handled := rfl
@[simp] theorem State.setByteCnt_cur (n : Byte) : (s.setByteCnt n).cur = s.cur := rfl
@[simp] theorem State.setByteCnt_grants (n : Byte) : (s.setByteCnt n).grants = s.grants := rfl
@[simp] theorem State.setByteCnt_draws (n : Byte) : (s.setByteCnt n).draws = s.draws := rfl
@[simp] theorem State.setByteCnt_epoch (n : Byte) : (s.setByteCnt n).epoch = s.epoch := rfl
@[simp] theorem State.setByteCnt_resetReq (n : Byte) : (s.setByteCnt n).resetReq = s.resetReq := rfl

/-! ### abandonFrame -/

@[simp] theorem State.abandonFrame_cfg : s.abandonFrame.cfg = s.cfg := rfl
@[simp] theorem State.abandonFrame_rb : s.abandonFrame.rb = s.rb := rfl
@[simp] theorem State.abandonFrame_head : s.abandonFrame.head = s.head := rfl
@[simp] theorem State.abandonFrame_tail : s.abandonFrame.tail = s.tail := rfl
@[simp] theorem State.abandonFrame_crc : s.abandonFrame.crc = s.crc := rfl
@[simp] theorem State.abandonFrame_frame : s.abandonFrame.frame = s.frame := rfl
@[simp] theorem State.abandonFrame_val : s.abandonFrame.val = s.val := rfl
@[simp] theorem State.abandonFrame_lastSeqRx : s.abandonFrame.lastSeqRx = s.lastSeqRx := rfl
@[simp] theorem State.abandonFrame_lastSeqTx : s.abandonFrame.lastSeqTx = s.lastSeqTx := rfl
@[simp] theorem State.abandonFrame_errorCount : s.abandonFrame.errorCount = s.errorCount + 1 := rfl
@[simp] theorem State.abandonFrame_validCount : s.abandonFrame.validCount = s.validCount := rfl
@[simp] theorem State.abandonFrame_pstate : s.abandonFrame.pstate = .awaitMark := rfl
@[simp] theorem State.abandonFrame_byteCnt : s.abandonFrame.byteCnt = 0 := rfl
@[simp] theorem State.abandonFrame_portP : s.abandonFrame.portP = s.portP := rfl
@[simp] theorem State.abandonFrame_portC : s.abandonFrame.portC = s.portC := rfl
@[simp] theorem State.abandonFrame_handled : s.abandonFrame.handled = s.handled := rfl
@[simp] theorem State.abandonFrame_cur : s.abandonFrame.cur = s.cur := rfl
@[simp] theorem State.abandonFrame_grants : s.abandonFrame.grants = s.grants := rfl
@[simp] theorem State.abandonFrame_draws : s.abandonFrame.draws = s.draws := rfl
@[simp] theorem State.abandonFrame_epoch : s.abandonFrame.epoch = s.epoch := rfl
@[simp] theorem State.abandonFrame_resetReq : s.abandonFrame.resetReq = s.resetReq := rfl

/-! ### advanceHead -/

@[simp] theorem State.advanceHead_cfg : s.advanceHead.cfg = s.cfg := rfl
@[simp] theorem State.advanceHead_rb : s.advanceHead.rb = s.rb := rfl
@[simp] theorem State.advanceHead_head : s.advanceHead.head = s.head + 1 := rfl
@[simp] theorem State.advanceHead_tail : s.advanceHead.tail = s.tail := rfl
@[simp] theorem State.advanceHead_crc : s.advanceHead.crc = s.crc := rfl
@[simp] theorem State.advanceHead_frame : s.advanceHead.frame = s.frame := rfl
@[simp] theorem State.advanceHead_val : s.advanceHead.val = s.val := rfl
@[simp] theorem State.advanceHead_lastSeqRx : s.advanceHead.lastSeqRx = s.lastSeqRx := rfl
@[simp] theorem State.advanceHead_lastSeqTx : s.advanceHead.lastSeqTx = s.lastSeqTx := rfl
@[simp] theorem State.advanceHead_errorCount : s.advanceHead.errorCount = s.errorCount := rfl
@[simp] theorem State.advanceHead_validCount : s.advanceHead.validCount = s.validCount := rfl
@[simp] theorem State.advanceHead_pstate : s.advanceHead.pstate = s.pstate := rfl
@[simp] theorem State.advanceHead_byteCnt : s.advanceHead.byteCnt = s.byteCnt := rfl
@[simp] theorem State.advanceHead_portP : s.advanceHead.portP = s.portP := rfl
@[simp] theorem State.advanceHead_portC : s.advanceHead.portC = s.portC := rfl
@[simp] theorem State.advanceHead_handled : s.advanceHead.handled = s.handled := rfl
@[simp] theorem State.advanceHead_cur : s.advanceHead.cur = s.cur := rfl
@[simp] theorem State.advanceHead_grants : s.advanceHead.grants = s.grants := rfl
@[simp] theorem State.advanceHead_draws : s.advanceHead.draws = s.draws := rfl
@[simp] theorem State.advanceHead_epoch : s.advanceHead.epoch = s.epoch := rfl
@[simp] theorem State.advanceHead_resetReq : s.advanceHead.resetReq = s.resetReq := rfl

/-! ### clearRing -/

@[simp] theorem State.clearRing_cfg : s.clearRing.cfg = s.cfg := rfl
@[simp] theorem State.clearRing_rb : s.clearRing.rb = s.rb := rfl
@[simp] theorem State.clearRing_head : s.clearRing.head = 0 := rfl
@[simp] theorem State.clearRing_tail : s.clearRing.tail = 0 := rfl
@[simp] theorem State.clearRing_crc : s.clearRing.crc = s.crc := rfl
@[simp] theorem State.clearRing_frame : s.clearRing.frame = s.frame := rfl
@[simp] theorem State.clearRing_val : s.clearRing.val = s.val := rfl
@[simp] theorem State.clearRing_lastSeqRx : s.clearRing.lastSeqRx = s.lastSeqRx := rfl
@[simp] theorem State.clearRing_lastSeqTx : s.clearRing.lastSeqTx = s.lastSeqTx := rfl
@[simp] theorem State.clearRing_errorCount : s.clearRing.errorCount = s.errorCount := rfl
@[simp] theorem State.clearRing_validCount : s.clearRing.validCount = s.validCount := rfl
@[simp] theorem State.clearRing_pstate : s.clearRing.pstate = s.pstate := rfl
@[simp] theorem State.clearRing_byteCnt : s.clearRing.byteCnt = s.byteCnt := rfl
@[simp] theorem State.clearRing_portP : s.clearRing.portP = s.portP := rfl
@[simp] theorem State.clearRing_portC : s.clearRing.portC = s.portC := rfl
@[simp] theorem State.clearRing_handled : s.clearRing.handled = s.handled := rfl
@[simp] theorem State.clearRing_cur : s.clearRing.cur = s.cur := rfl
@[simp] theorem State.clearRing_grants : s.clearRing.grants = s.grants := rfl
@[simp] theorem State.clearRing_draws : s.clearRing.draws = s.draws := rfl
@[simp] theorem State.clearRing_epoch : s.clearRing.epoch = s.epoch := rfl
@[simp] theorem State.clearRing_resetReq : s.clearRing.resetReq = s.resetReq := rfl

/-! ### setCrc -/

@[simp] theorem State.setCrc_cfg (v : Half) : (s.setCrc v).cfg = s.cfg := rfl
@[simp] theorem State.setCrc_rb (v : Half) : (s.setCrc v).rb = s.rb := rfl
@[simp] theorem State.setCrc_head (v : Half) : (s.setCrc v).head = s.head := rfl
@[simp] theorem State.setCrc_tail (v : Half) : (s.setCrc v).tail = s.tail := rfl
@[simp] theorem State.setCrc_crc (v : Half) : (s.setCrc v).crc = v := rfl
@[simp] theorem State.setCrc_frame (v : Half) : (s.setCrc v).frame = s.frame := rfl
@[simp] theorem State.setCrc_val (v : Half) : (s.setCrc v).val = s.val := rfl
@[simp] theorem State.setCrc_lastSeqRx (v : Half) : (s.setCrc v).lastSeqRx = s.lastSeqRx := rfl
@[simp] theorem State.setCrc_lastSeqTx (v : Half) : (s.setCrc v).lastSeqTx = s.lastSeqTx := rfl
@[simp] theorem State.setCrc_errorCount (v : Half) : (s.setCrc v).errorCount = s.errorCount := rfl
@[simp] theorem State.setCrc_validCount (v : Half) : (s.setCrc v).validCount = s.validCount := rfl
@[simp] theorem State.setCrc_pstate (v : Half) : (s.setCrc v).pstate = s.pstate := rfl
@[simp] theorem State.setCrc_byteCnt (v : Half) : (s.setCrc v).byteCnt = s.byteCnt := rfl
@[simp] theorem State.setCrc_portP (v : Half) : (s.setCrc v).portP = s.portP := rfl
@[simp] theorem State.setCrc_portC (v : Half) : (s.setCrc v).portC = s.portC := rfl
@[simp] theorem State.setCrc_handled (v : Half) : (s.setCrc v).handled = s.handled := rfl
@[simp] theorem State.setCrc_cur (v : Half) : (s.setCrc v).cur = s.cur := rfl
@[simp] theorem State.setCrc_grants (v : Half) : (s.setCrc v).grants = s.grants := rfl
@[simp] theorem State.setCrc_draws (v : Half) : (s.setCrc v).draws = s.draws := rfl
@[simp] theorem State.setCrc_epoch (v : Half) : (s.setCrc v).epoch = s.epoch := rfl
@[simp] theorem State.setCrc_resetReq (v : Half) : (s.setCrc v).resetReq = s.resetReq := rfl

end Sys2Proof.Machine
end

