-- ==== Sys2Proof/Laws/Ports.lean ====
section
/-! SUPPORT. What reading and writing a port gives, what responding does, and which port moves. -/

namespace Sys2Proof.Machine

@[simp] theorem Port.other_ne (q : Port) : q.other ≠ q := by cases q <;> decide

@[simp] theorem State.port_setPort_self (s : State) (q : Port) (x : PortState) : (s.setPort q x).port q = x := by
  cases q <;> simp [State.setPort, State.port]

theorem State.port_setPort_ne (s : State) {q r : Port} (x : PortState) (h : r ≠ q) :
    (s.setPort q x).port r = s.port r := by
  cases q <;> cases r <;> simp_all [State.setPort, State.port]

@[simp] theorem State.port_setPort_other (s : State) (q : Port) (x : PortState) :
    (s.setPort q x).port q.other = s.port q.other := s.port_setPort_ne x (Port.other_ne q)

@[simp] theorem State.inbox_setRunning (s : State) (r : Option Running) (q : Port) :
    ((s.setRunning r).port q).inbox = (s.port q).inbox := by
  cases h : s.cur <;> cases q <;> simp [State.setRunning, State.setPort, State.port, h]

@[simp] theorem State.out_setRunning (s : State) (r : Option Running) (q : Port) :
    ((s.setRunning r).port q).out = (s.port q).out := by
  cases h : s.cur <;> cases q <;> simp [State.setRunning, State.setPort, State.port, h]

@[simp] theorem State.running_setRunning (s : State) (r : Option Running) : (s.setRunning r).running = r := by
  cases h : s.cur <;> simp [State.running, State.setRunning, State.setPort, State.port, h]

@[simp] theorem State.busy_setRunning_cur (s : State) (r : Option Running) :
    ((s.setRunning r).port s.cur).busy = r := by simp [State.setRunning]

@[simp] theorem State.busy_setRunning_other (s : State) (r : Option Running) :
    ((s.setRunning r).port s.cur.other).busy = (s.port s.cur.other).busy := by simp [State.setRunning]

@[simp] theorem State.inbox_respondAll (s : State) (rs : List Resp) (q : Port) :
    ((s.respondAll rs).port q).inbox = (s.port q).inbox := by
  cases h : s.cur <;> cases q <;> simp [State.respondAll, State.setPort, State.port, h]

@[simp] theorem State.busy_respondAll (s : State) (rs : List Resp) (q : Port) :
    ((s.respondAll rs).port q).busy = (s.port q).busy := by
  cases h : s.cur <;> cases q <;> simp [State.respondAll, State.setPort, State.port, h]

@[simp] theorem State.out_respondAll_cur (s : State) (rs : List Resp) :
    ((s.respondAll rs).port s.cur).out = (s.port s.cur).out ++ rs := by simp [State.respondAll]

@[simp] theorem State.out_respondAll_other (s : State) (rs : List Resp) :
    ((s.respondAll rs).port s.cur.other).out = (s.port s.cur.other).out := by simp [State.respondAll]

@[simp] theorem State.onlyP_p {s : State} (h : s.cur = .p) (k : State → State) : s.onlyP k = k s := by
  simp [State.onlyP, h]

@[simp] theorem State.onlyP_c {s : State} (h : s.cur = .c) (k : State → State) :
    s.onlyP k = s.illegal .wrongPort := by simp [State.onlyP, h]

@[simp] theorem State.onlyC_c {s : State} (h : s.cur = .c) (k : State → State) : s.onlyC k = k s := by
  simp [State.onlyC, h]

@[simp] theorem State.onlyC_p {s : State} (h : s.cur = .p) (k : State → State) :
    s.onlyC k = s.illegal .wrongPort := by simp [State.onlyC, h]

/-- What arbitration can do (20_memory.md R58): it selects a port that is ready and changes only `cur`, `grants` and
`draws`. -/
theorem State.arbitrate_cases {s t : State} (h : s.arbitrate = some t) :
    ∃ q gs n, t = { s with cur := q, grants := gs, draws := n } ∧ (s.port q).ready = true := by
  unfold State.arbitrate at h
  split at h
  · cases h
  · rename_i hp _
    cases h
    exact ⟨.p, s.grants, s.draws, rfl, hp⟩
  · rename_i _ hc
    cases h
    exact ⟨.c, s.grants, s.draws, rfl, hc⟩
  · rename_i hp hc
    have ready : ∀ q, (s.port q).ready = true := fun q => by cases q <;> assumption
    split at h
    · rename_i q gs _
      cases h
      exact ⟨q, gs, s.draws, rfl, ready q⟩
    · cases h
      exact ⟨if Config.arbiterPicksP s.draws then .p else .c, s.grants, s.draws + 1, rfl, ready _⟩

theorem State.orderly_iff (s : State) : s.orderly = true ↔
    s.portP.overrun = false ∧ s.portC.overrun = false ∧ s.flushExposed = false := by
  simp [State.orderly, and_assoc]

/-- While both agents keep their obligations a step is arbitration and the next atomic part. -/
theorem State.advance_of_orderly {s : State} (hr : s.resetReq = false) (ho : s.orderly = true) :
    s.advance = match s.arbitrate with | none => .next s | some t => t.runCurrent := by
  obtain ⟨hp, hc, hf⟩ := s.orderly_iff.1 ho
  simp only [State.advance, hr, hp, hc, hf]
  rfl

/-- A port with nothing to do has nothing sent too early. -/
theorem PortState.overrun_of_not_ready {x : PortState} (h : x.ready = false) : x.overrun = false := by
  unfold PortState.ready at h
  unfold PortState.overrun
  split at h
  · cases h
  · cases hd : decode x.inbox <;> simp_all

/-- A port that has sent exactly one command, or has a bulk command in execution and has sent nothing, is in order. -/
theorem PortState.overrun_of_inbox_nil {x : PortState} (h : x.inbox = []) : x.overrun = false := by
  unfold PortState.overrun
  rw [h]
  split <;> rfl

/-- What a step can do (20_memory.md R58, 70_reset_and_hazards.md R251): construction again, and, while both agents keep
their obligations, nothing or the next atomic part on the port arbitration selects. -/
theorem step_cases {s t : State} (h : s.advance = .next t) :
    (s.resetReq = true ∧ s.idle = true ∧ t = s.rebuild) ∨
    (s.resetReq = false ∧ s.orderly = true ∧ s.arbitrate = none ∧ t = s) ∨
    (s.resetReq = false ∧ s.orderly = true ∧ ∃ u, s.arbitrate = some u ∧ u.runCurrent = .next t) := by
  unfold State.advance at h
  split at h
  · rename_i hr
    split at h
    · rename_i hi
      injection h with h
      exact .inl ⟨hr, hi, h.symm⟩
    · cases h
  · rename_i hr
    have hr : s.resetReq = false := by simpa using hr
    split at h
    · cases h
    · rename_i ho
      split at h
      · cases h
      · rename_i hf
        have ho : s.orderly = true := by simp_all [State.orderly]
        split at h
        · rename_i ha
          injection h with h
          exact .inr (.inl ⟨hr, ho, ha, h.symm⟩)
        · rename_i u ha
          exact .inr (.inr ⟨hr, ho, u, ha, h⟩)

/-- All that the current port's next atomic part can be: the bulk command in execution, nothing, the next command sent,
or the refusal of a beat that is none (20_memory.md R58, 30_encoding.md R77, R81). -/
theorem State.runCurrent_cases {s t : State} (h : s.runCurrent = .next t) :
    (∃ r, s.running = some r ∧ exec r.instr s = .next t) ∨
    (s.running = none ∧ decode (s.port s.cur).inbox = .short ∧ t = s) ∨
    (∃ i rest, s.running = none ∧ decode (s.port s.cur).inbox = .ok i rest ∧ exec i (s.setInbox rest) = .next t) ∨
    (∃ e rest, s.running = none ∧ decode (s.port s.cur).inbox = .illegal e rest ∧
      t = (s.setInbox rest).illegal (reasonOf e)) := by
  unfold State.runCurrent at h
  split at h
  · rename_i r hr
    exact .inl ⟨r, hr, h⟩
  · rename_i hr
    split at h
    · rename_i hd
      injection h with h
      exact .inr (.inl ⟨hr, hd, h.symm⟩)
    · rename_i i rest hd
      exact .inr (.inr (.inl ⟨i, rest, hr, hd, h⟩))
    · rename_i e rest hd
      injection h with h
      exact .inr (.inr (.inr ⟨e, rest, hr, hd, h.symm⟩))

@[simp] theorem State.busy_setInbox (s : State) (bs : List Beat) (q : Port) :
    ((s.setInbox bs).port q).busy = (s.port q).busy := by
  cases h : s.cur <;> cases q <;> simp [State.setInbox, State.setPort, State.port, h]

@[simp] theorem State.out_setInbox (s : State) (bs : List Beat) (q : Port) :
    ((s.setInbox bs).port q).out = (s.port q).out := by
  cases h : s.cur <;> cases q <;> simp [State.setInbox, State.setPort, State.port, h]

@[simp] theorem State.inbox_setInbox (s : State) (bs : List Beat) :
    ((s.setInbox bs).port s.cur).inbox = bs := by
  cases h : s.cur <;> simp [State.setInbox, State.setPort, State.port, h]

end Sys2Proof.Machine
end

