-- ==== Sys2Proof/Laws/Answers.lean ====
section
/-! SUPPORT. The frames of the shared operations: what a response, a refusal, a bulk command's progress and each writer
leaves alone, in the words of Sys2Proof/Safety.lean. -/

namespace Sys2Proof.Machine

/-- A response changes nothing but the responses (00_scope.md R13). -/
theorem State.respondAll_onlyAnswers (s : State) (rs : List Resp) : OnlyAnswers s (s.respondAll rs) rs :=
  ⟨⟨s.out_respondAll_cur rs, s.out_respondAll_other rs⟩, ⟨fun _ => rfl, rfl, rfl⟩, rfl, ⟨rfl, fun _ => rfl⟩,
    ⟨rfl, rfl, rfl, rfl⟩, ⟨rfl, rfl⟩, fun q => s.busy_respondAll rs q, rfl,
    ⟨rfl, fun q => s.inbox_respondAll rs q, rfl, rfl, rfl, rfl, rfl⟩⟩

theorem State.respond_onlyAnswers (s : State) (st : Status) (d : Word) :
    OnlyAnswers s (s.respond st d) (resp st d) := s.respondAll_onlyAnswers _

/-- A refusal changes nothing but the responses (30_encoding.md R81). -/
theorem State.illegal_onlyAnswers (s : State) (r : Reason) : OnlyAnswers s (s.illegal r) (resp .illegal r.code) :=
  s.respond_onlyAnswers _ _

/-! A change that keeps the ports, followed by a response: what is kept is kept, and the answer is that one response. -/

theorem Answers.of_ports {s t u : State} {rs : List Resp} (h : Answers t u rs) (hc : t.cur = s.cur)
    (hp : ∀ q, (t.port q).out = (s.port q).out) : Answers s u rs := by
  obtain ⟨h1, h2⟩ := h
  rw [hc, hp] at h1
  rw [hc, hp] at h2
  exact ⟨h1, h2⟩

theorem SameRing.trans {s t u : State} (h : SameRing s t) (k : SameRing t u) : SameRing s u :=
  ⟨fun a => (k.1 a).trans (h.1 a), k.2.1.trans h.2.1, k.2.2.trans h.2.2⟩

theorem SameCrc.trans {s t u : State} (h : SameCrc s t) (k : SameCrc t u) : SameCrc s u := Eq.trans k h

theorem SameFrame.trans {s t u : State} (h : SameFrame s t) (k : SameFrame t u) : SameFrame s u :=
  ⟨k.1.trans h.1, fun a => (k.2 a).trans (h.2 a)⟩

theorem SameSession.trans {s t u : State} (h : SameSession s t) (k : SameSession t u) : SameSession s u :=
  ⟨k.1.trans h.1, k.2.1.trans h.2.1, k.2.2.1.trans h.2.2.1, k.2.2.2.trans h.2.2.2⟩

theorem SameParser.trans {s t u : State} (h : SameParser s t) (k : SameParser t u) : SameParser s u :=
  ⟨k.1.trans h.1, k.2.trans h.2⟩

theorem SameBusy.trans {s t u : State} (h : SameBusy s t) (k : SameBusy t u) : SameBusy s u :=
  fun q => (k q).trans (h q)

theorem SameEvents.trans {s t u : State} (h : SameEvents s t) (k : SameEvents t u) : SameEvents s u := Eq.trans k h

theorem SameOutside.trans {s t u : State} (h : SameOutside s t) (k : SameOutside t u) : SameOutside s u := by
  obtain ⟨h1, h2, h3, h4, h5, h6, h7⟩ := h
  obtain ⟨k1, k2, k3, k4, k5, k6, k7⟩ := k
  exact ⟨k1.trans h1, fun q => (k2 q).trans (h2 q), k3.trans h3, k4.trans h4, k5.trans h5, k6.trans h6, k7.trans h7⟩

/-- A response after a change of the ring. -/
theorem OnlyAnswers.sameButRing {s t u : State} {rs : List Resp} (h : SameButRing s t) (k : OnlyAnswers t u rs) :
    SameButRing s u := by
  obtain ⟨h1, h2, h3, h4, h5, h6, h7⟩ := h
  obtain ⟨-, -, k1, k2, k3, k4, k5, k6, k7⟩ := k
  exact ⟨h1.trans k1, h2.trans k2, h3.trans k3, h4.trans k4, h5.trans k5, h6.trans k6, h7.trans k7⟩

/-- A response after a change of the CRC accumulator. -/
theorem OnlyAnswers.sameButCrc {s t u : State} {rs : List Resp} (h : SameButCrc s t) (k : OnlyAnswers t u rs) :
    SameButCrc s u := by
  obtain ⟨h1, h2, h3, h4, h5, h6, h7⟩ := h
  obtain ⟨-, k0, -, k2, k3, k4, k5, k6, k7⟩ := k
  exact ⟨h1.trans k0, h2.trans k2, h3.trans k3, h4.trans k4, h5.trans k5, h6.trans k6, h7.trans k7⟩

/-- A response after a change of the Frame, the counters or the parser. -/
theorem OnlyAnswers.sameButLink {s t u : State} {rs : List Resp} (h : SameButLink s t) (k : OnlyAnswers t u rs) :
    SameButLink s u := by
  obtain ⟨h1, h2, h3, h4, h5⟩ := h
  obtain ⟨-, k1, k2, -, -, -, k3, k4, k5⟩ := k
  exact ⟨h1.trans k1, h2.trans k2, h3.trans k3, h4.trans k4, h5.trans k5⟩

/-! What each writer leaves alone. -/

/-- PUSH's body (40_ring_buffer.md R101). -/
theorem State.pushByte_sameButRing (s : State) (b : Byte) : SameButRing s (s.pushByte b) :=
  ⟨rfl, ⟨rfl, fun _ => rfl⟩, ⟨rfl, rfl, rfl, rfl⟩, ⟨rfl, rfl⟩, fun q => by cases q <;> rfl, rfl,
    ⟨rfl, fun q => by cases q <;> rfl, rfl, rfl, rfl, rfl, rfl⟩⟩

/-- POP's body (40_ring_buffer.md R102). -/
theorem State.advanceHead_sameButRing (s : State) : SameButRing s s.advanceHead :=
  ⟨rfl, ⟨rfl, fun _ => rfl⟩, ⟨rfl, rfl, rfl, rfl⟩, ⟨rfl, rfl⟩, fun q => by cases q <;> rfl, rfl,
    ⟨rfl, fun q => by cases q <;> rfl, rfl, rfl, rfl, rfl, rfl⟩⟩

/-- FLUSH's body (40_ring_buffer.md R110). -/
theorem State.clearRing_sameButRing (s : State) : SameButRing s s.clearRing :=
  ⟨rfl, ⟨rfl, fun _ => rfl⟩, ⟨rfl, rfl, rfl, rfl⟩, ⟨rfl, rfl⟩, fun q => by cases q <;> rfl, rfl,
    ⟨rfl, fun q => by cases q <;> rfl, rfl, rfl, rfl, rfl, rfl⟩⟩

/-- A write of the accumulator (41_checksum.md R122 to R124). -/
theorem State.setCrc_sameButCrc (s : State) (v : Half) : SameButCrc s (s.setCrc v) :=
  ⟨⟨fun _ => rfl, rfl, rfl⟩, ⟨rfl, fun _ => rfl⟩, ⟨rfl, rfl, rfl, rfl⟩, ⟨rfl, rfl⟩, fun q => by cases q <;> rfl, rfl,
    ⟨rfl, fun q => by cases q <;> rfl, rfl, rfl, rfl, rfl, rfl⟩⟩

/-- The progress of a bulk command (20_memory.md R58). -/
theorem State.setRunning_sameButRingAndBusy (s : State) (r : Option Running) :
    SameButRingAndBusy s (s.setRunning r) ∧ SameRing s (s.setRunning r) ∧ Answers s (s.setRunning r) [] :=
  ⟨⟨rfl, ⟨rfl, fun _ => rfl⟩, ⟨rfl, rfl, rfl, rfl⟩, ⟨rfl, rfl⟩, s.busy_setRunning_other r, rfl,
      ⟨rfl, fun q => s.inbox_setRunning r q, rfl, rfl, rfl, rfl, rfl⟩⟩,
    ⟨fun _ => rfl, rfl, rfl⟩, by simp [Answers]⟩

theorem SameButRing.andBusy {s t : State} (h : SameButRing s t) : SameButRingAndBusy s t := by
  obtain ⟨h1, h2, h3, h4, h5, h6, h7⟩ := h
  exact ⟨h1, h2, h3, h4, h5 _, h6, h7⟩

theorem OnlyAnswers.sameButRingAndBusy {s t u : State} {rs : List Resp} (h : SameButRingAndBusy s t)
    (k : OnlyAnswers t u rs) : SameButRingAndBusy s u := by
  obtain ⟨h1, h2, h3, h4, h5, h6, h7⟩ := h
  obtain ⟨-, -, k1, k2, k3, k4, k5, k6, k7⟩ := k
  refine ⟨h1.trans k1, h2.trans k2, h3.trans k3, h4.trans k4, ?_, h6.trans k6, h7.trans k7⟩
  exact (k5 _).trans h5

end Sys2Proof.Machine
end

