-- ==== Sys2Proof/Laws/Decode.lean ====
section
/-! SUPPORT. The fields of a beat built from fields, the payload of a beat built from a byte, and the shape of an
encoding (30_encoding.md R71, R77, R83). -/

namespace Sys2Proof

@[simp] theorem opOf_beatOf (op a : Byte) (imm : Half) : opOf (beatOf op a imm) = op := by
  apply BitVec.eq_of_toNat_eq
  have h1 := op.isLt; have h2 := a.isLt; have h3 := imm.isLt
  simp only [opOf, beatOf, BitVec.extractLsb'_toNat, BitVec.toNat_append, Nat.shiftRight_eq_div_pow]
  rw [← Nat.shiftLeft_add_eq_or_of_lt h3, ← Nat.shiftLeft_add_eq_or_of_lt h2]
  simp only [Nat.shiftLeft_eq]
  omega

@[simp] theorem aOf_beatOf (op a : Byte) (imm : Half) : aOf (beatOf op a imm) = a := by
  apply BitVec.eq_of_toNat_eq
  have h1 := op.isLt; have h2 := a.isLt; have h3 := imm.isLt
  simp only [aOf, beatOf, BitVec.extractLsb'_toNat, BitVec.toNat_append, Nat.shiftRight_eq_div_pow]
  rw [← Nat.shiftLeft_add_eq_or_of_lt h3, ← Nat.shiftLeft_add_eq_or_of_lt h2]
  simp only [Nat.shiftLeft_eq]
  omega

@[simp] theorem immOf_beatOf (op a : Byte) (imm : Half) : immOf (beatOf op a imm) = imm := by
  apply BitVec.eq_of_toNat_eq
  have h1 := op.isLt; have h2 := a.isLt; have h3 := imm.isLt
  simp only [immOf, beatOf, BitVec.extractLsb'_toNat, BitVec.toNat_append, Nat.shiftRight_eq_div_pow]
  rw [← Nat.shiftLeft_add_eq_or_of_lt h3, ← Nat.shiftLeft_add_eq_or_of_lt h2]
  simp only [Nat.shiftLeft_eq]
  omega

/-- A beat is its three fields (30_encoding.md R71). -/
theorem beatOf_fields (cw : Beat) : beatOf (opOf cw) (aOf cw) (immOf cw) = cw := by
  apply BitVec.eq_of_toNat_eq
  have h := cw.isLt
  simp only [opOf, aOf, immOf, beatOf, BitVec.extractLsb'_toNat, BitVec.toNat_append, Nat.shiftRight_eq_div_pow]
  rw [← Nat.shiftLeft_add_eq_or_of_lt (by omega), ← Nat.shiftLeft_add_eq_or_of_lt (by omega)]
  simp only [Nat.shiftLeft_eq]
  omega

@[simp] theorem payloadByte_setWidth (b : Byte) : payloadByte (b.setWidth 32) = b := by
  apply BitVec.eq_of_toNat_eq
  have h := b.isLt
  simp only [payloadByte, BitVec.extractLsb'_toNat, BitVec.toNat_setWidth, Nat.shiftRight_zero]
  omega

@[simp] theorem payloadByte_comp_setWidth : payloadByte ∘ (fun b : Byte => b.setWidth 32) = id := by
  funext b
  exact payloadByte_setWidth b

theorem Instr.wf_iff (i : Instr) : i.wf = true ↔ i.payload.length ≤ 65535 := decide_eq_true_iff

/-- A command is one header beat and one beat a payload byte (30_encoding.md R77). -/
theorem encode_length (i : Instr) : (encode i).length = 1 + i.payload.length := by
  simp [encode, Nat.add_comm]

end Sys2Proof
end

