-- ==== Sys2Proof/Laws/Exec.lean ====
section
/-! SUPPORT. Where `exec` can end: no meaning refuses, and only FLUSH faults. -/

namespace Sys2Proof.Machine

/-- No command is without a meaning. -/
theorem exec_ne_refused (i : Instr) (s : State) (r : Refusal) : exec i s ≠ .refused r := by
  cases i <;> first
    | (intro h; cases h)
    | (simp only [exec, execFlush]; intro h; split at h <;> first | cases h | (split at h <;> cases h))

/-- Every command but FLUSH answers a next state from every state. -/
theorem exec_next (i : Instr) (h : i ≠ .flush) (s : State) : ∃ t, exec i s = .next t := by
  cases i <;> first | exact ⟨_, rfl⟩ | exact absurd rfl h

/-- FLUSH faults exactly when it is legal on its port and the producer is not quiet (70_reset_and_hazards.md R254). -/
theorem execFlush_cases (s : State) :
    (s.cur = .p ∧ exec .flush s = .next (s.illegal .wrongPort)) ∨
    (s.cur = .c ∧ s.producerQuiet = true ∧
      exec .flush s = .next (s.clearRing.respond .ok 0)) ∨
    (s.cur = .c ∧ s.producerQuiet = false ∧ exec .flush s = .fault .flushNotQuiescent) := by
  unfold exec execFlush
  cases hc : s.cur <;> cases hq : s.producerQuiet <;> simp

end Sys2Proof.Machine
end

