-- ==== Sys2Proof/Laws/Memory.lean ====
section
/-! SUPPORT. The laws of byte storage: a read after a write, the canonical form, the bounds. -/

namespace Sys2Proof.Machine

theorem Memory.get_set_self (m : Memory) (a : Nat) (b : Byte) : (m.set a b).get a = some b := by
  induction m with
  | nil => simp [Memory.set, Memory.get]
  | cons x m ih =>
    obtain ⟨x, v⟩ := x
    unfold Memory.set
    split
    · simp [Memory.get]
    · split
      · simp [Memory.get]
      · rename_i h1 h2
        have : x ≠ a := fun h => h2 h.symm
        simp [Memory.get, this, ih]

theorem Memory.get_set_ne (m : Memory) {a c : Nat} (b : Byte) (h : c ≠ a) : (m.set a b).get c = m.get c := by
  induction m with
  | nil => simp [Memory.set, Memory.get, h.symm]
  | cons x m ih =>
    obtain ⟨x, v⟩ := x
    unfold Memory.set
    split
    · simp [Memory.get, h.symm]
    · split
      · rename_i _ h2
        subst h2
        simp [Memory.get, h.symm]
      · simp [Memory.get, ih]

/-- A read after a write. -/
theorem Memory.get_set (m : Memory) (a c : Nat) (b : Byte) :
    (m.set a b).get c = if c = a then some b else m.get c := by
  split
  · rename_i h; rw [h, Memory.get_set_self]
  · rename_i h; exact Memory.get_set_ne m b h

theorem Memory.mem_set {m : Memory} {a : Nat} {b : Byte} {x : Nat × Byte} (h : x ∈ m.set a b) :
    x = (a, b) ∨ x ∈ m := by
  induction m with
  | nil => simpa [Memory.set] using h
  | cons y m ih =>
    obtain ⟨y, v⟩ := y
    unfold Memory.set at h
    split at h
    · simpa using h
    · split at h
      · simp only [List.mem_cons] at h ⊢; tauto
      · simp only [List.mem_cons] at h ⊢
        rcases h with h | h
        · tauto
        · rcases ih h with h | h <;> tauto

/-- A write keeps the canonical form. -/
theorem Memory.wf_set {m : Memory} (a : Nat) (b : Byte) (h : m.wf) : (m.set a b).wf := by
  induction m with
  | nil => simp [Memory.set, Memory.wf]
  | cons y m ih =>
    obtain ⟨y, v⟩ := y
    rw [Memory.wf, List.pairwise_cons] at h
    unfold Memory.set
    split
    · rename_i hay
      rw [Memory.wf, List.pairwise_cons]
      refine ⟨?_, List.pairwise_cons.2 h⟩
      intro x hx
      rcases List.mem_cons.1 hx with rfl | hx
      · exact hay
      · exact lt_trans hay (h.1 x hx)
    · split
      · rename_i _ hay
        subst hay
        exact List.pairwise_cons.2 h
      · rename_i h1 h2
        rw [Memory.wf, List.pairwise_cons]
        refine ⟨?_, ih h.2⟩
        intro x hx
        rcases Memory.mem_set hx with rfl | hx
        · simp only; omega
        · exact h.1 x hx

/-- A write inside the bound keeps every entry inside it. -/
theorem Memory.set_inside {m : Memory} {a n : Nat} (b : Byte) (ha : a < n) (h : ∀ x ∈ m, x.1 < n) :
    ∀ x ∈ m.set a b, x.1 < n := by
  intro x hx
  rcases Memory.mem_set hx with rfl | hx
  · exact ha
  · exact h x hx

/-- Ring storage after a PUSH, cell by cell (40_ring_buffer.md R101). -/
theorem State.rbRead_pushByte (s : State) (b : Byte) (a : Nat) :
    (s.pushByte b).rbRead a = if a = s.phys s.tail then b else s.rbRead a := by
  simp only [State.rbRead, State.pushByte, Memory.get_set]
  split <;> rfl

/-- The value buffer after a write, cell by cell. -/
theorem State.valRead_valWrite (s : State) (a c : Nat) (b : Byte) :
    (s.valWrite a b).valRead c = if c = a then b else s.valRead c := by
  simp only [State.valRead, State.valWrite, Memory.get_set]
  split <;> rfl

end Sys2Proof.Machine
end

