-- ==== Sys2Proof/Laws/Parser.lean ====
section
/-! SUPPORT. Frame registers after a write; what one parser step can touch (42_frame_parser.md R133 to R149). -/

namespace Sys2Proof.Machine

@[simp] theorem Frame.get_set_self (f : Frame) (r : FReg) (v : Byte) : (f.set r v).get r = v := by cases r <;> rfl

theorem Frame.get_set_ne (f : Frame) {r x : FReg} (v : Byte) (h : x ≠ r) : (f.set r v).get x = f.get x := by
  cases r <;> cases x <;> first | rfl | exact absurd rfl h

/-- A Frame is its twelve registers. -/
theorem Frame.ext_get {f g : Frame} (h : ∀ r, f.get r = g.get r) : f = g := by
  cases f; cases g
  simp only [Frame.mk.injEq]
  exact ⟨h .mark, h .calcFlag, h .seq, h .sys, h .dev, h .tag, h .len, h .cklo, h .ckhi, h .resv0, h .resv1, h .resv2⟩

/-- The part of the state no parser step touches (42_frame_parser.md, section 2): configuration, ring, CRC, the other
three counters, ports, events, the model's own fields. -/
structure SameOutsideParser (s t : State) : Prop where
  cfg : t.cfg = s.cfg
  rb : t.rb = s.rb
  head : t.head = s.head
  tail : t.tail = s.tail
  crc : t.crc = s.crc
  lastSeqRx : t.lastSeqRx = s.lastSeqRx
  lastSeqTx : t.lastSeqTx = s.lastSeqTx
  validCount : t.validCount = s.validCount
  portP : t.portP = s.portP
  portC : t.portC = s.portC
  handled : t.handled = s.handled
  cur : t.cur = s.cur
  grants : t.grants = s.grants
  draws : t.draws = s.draws
  epoch : t.epoch = s.epoch
  resetReq : t.resetReq = s.resetReq

theorem SameOutsideParser.refl (s : State) : SameOutsideParser s s := by constructor <;> rfl

theorem SameOutsideParser.trans {s t u : State} (h : SameOutsideParser s t) (k : SameOutsideParser t u) :
    SameOutsideParser s u := by
  constructor <;> first
    | exact k.cfg.trans h.cfg | exact k.rb.trans h.rb | exact k.head.trans h.head | exact k.tail.trans h.tail
    | exact k.crc.trans h.crc | exact k.lastSeqRx.trans h.lastSeqRx | exact k.lastSeqTx.trans h.lastSeqTx
    | exact k.validCount.trans h.validCount | exact k.portP.trans h.portP | exact k.portC.trans h.portC
    | exact k.handled.trans h.handled | exact k.cur.trans h.cur | exact k.grants.trans h.grants
    | exact k.draws.trans h.draws | exact k.epoch.trans h.epoch | exact k.resetReq.trans h.resetReq

theorem State.goto_outside (s : State) (q : PState) : SameOutsideParser s (s.goto q) := by constructor <;> rfl

theorem State.setByteCnt_outside (s : State) (n : Byte) : SameOutsideParser s (s.setByteCnt n) := by
  constructor <;> rfl

theorem State.setF_outside (s : State) (r : FReg) (b : Byte) : SameOutsideParser s (s.setF r b) := by
  constructor <;> rfl

theorem State.valWrite_outside (s : State) (a : Nat) (b : Byte) : SameOutsideParser s (s.valWrite a b) := by
  constructor <;> rfl

theorem State.abandonFrame_outside (s : State) : SameOutsideParser s s.abandonFrame := by constructor <;> rfl

/-! ### The pieces: what each leaves, and what it answers -/

@[simp] theorem State.record_fst (s : State) (r : FReg) (b : Byte) (q : PState) :
    (s.record r b q).1 = (s.setF r b).goto q := rfl

@[simp] theorem State.record_snd (s : State) (r : FReg) (b : Byte) (q : PState) :
    (s.record r b q).2 = .incomplete := rfl

@[simp] theorem State.parseFail_fst (s : State) (c : Cause) : (s.parseFail c).1 = s.abandonFrame := rfl

@[simp] theorem State.parseFail_snd (s : State) (c : Cause) : (s.parseFail c).2 = .error c := rfl

/-- The end of the value field (42_frame_parser.md R142, R145). -/
theorem State.afterValue_cases (s : State) :
    (s.cfg.profile = .trailer ∧ s.afterValue = (s.goto .awaitChecksumLow, .incomplete)) ∨
    (s.cfg.profile ≠ .trailer ∧ s.afterValue = (s.goto .awaitMark, .complete)) := by
  unfold State.afterValue
  cases s.cfg.profile <;> simp

/-- All that a length that has been accepted can do (42_frame_parser.md R140, R142). -/
theorem State.recordLen_cases (s : State) (b : Byte) :
    (b ≠ 0 ∧ s.recordLen b = (((s.setF .len b).setByteCnt 0).goto .awaitValue, .incomplete)) ∨
    (b = 0 ∧ s.cfg.profile = .trailer ∧
      s.recordLen b = (((s.setF .len b).setByteCnt 0).goto .awaitChecksumLow, .incomplete)) ∨
    (b = 0 ∧ s.cfg.profile ≠ .trailer ∧
      s.recordLen b = (((s.setF .len b).setByteCnt 0).goto .awaitMark, .complete)) := by
  have hl : ((s.setF .len b).setByteCnt 0).frame.len = b := rfl
  unfold State.recordLen State.afterLen
  rw [hl]
  by_cases hb : b = 0
  · rw [if_pos hb]
    rcases State.afterValue_cases ((s.setF .len b).setByteCnt 0) with ⟨hp, h⟩ | ⟨hp, h⟩
    · exact .inr (.inl ⟨hb, hp, h⟩)
    · exact .inr (.inr ⟨hb, hp, h⟩)
  · rw [if_neg hb]
    exact .inl ⟨hb, rfl⟩

/-- All that a value byte can do (42_frame_parser.md R143 to R145). -/
theorem State.parseValue_cases (s : State) (b : Byte) :
    (s.lenFits = false ∧ s.parseValue b = s.parseFail .frameOverflow) ∨
    (s.lenFits = true ∧ s.byteCnt + 1 ≠ s.frame.len ∧
      s.parseValue b = ((s.valWrite s.byteCnt.toNat b).setByteCnt (s.byteCnt + 1), .incomplete)) ∨
    (s.lenFits = true ∧ s.byteCnt + 1 = s.frame.len ∧ s.cfg.profile = .trailer ∧
      s.parseValue b = (((s.valWrite s.byteCnt.toNat b).setByteCnt 0).goto .awaitChecksumLow, .incomplete)) ∨
    (s.lenFits = true ∧ s.byteCnt + 1 = s.frame.len ∧ s.cfg.profile ≠ .trailer ∧
      s.parseValue b = (((s.valWrite s.byteCnt.toNat b).setByteCnt 0).goto .awaitMark, .complete)) := by
  unfold State.parseValue
  cases hl : s.lenFits
  · exact .inl ⟨rfl, by simp⟩
  · by_cases hb : s.byteCnt + 1 = s.frame.len
    · rcases State.afterValue_cases ((s.valWrite s.byteCnt.toNat b).setByteCnt 0) with ⟨hp, h⟩ | ⟨hp, h⟩
      · exact .inr (.inr (.inl ⟨rfl, hb, hp, by rw [if_pos rfl, if_pos hb]; exact h⟩))
      · exact .inr (.inr (.inr ⟨rfl, hb, hp, by rw [if_pos rfl, if_pos hb]; exact h⟩))
    · exact .inr (.inl ⟨rfl, hb, by rw [if_pos rfl, if_neg hb]⟩)

/-- The register and successor of a state that takes one byte of a fixed field (42_frame_parser.md R135 to R139, R146,
R148). -/
def fixedField : PState → Option (FReg × PState)
  | .awaitCalc => some (.calcFlag, .awaitSeq)
  | .awaitSeq => some (.seq, .awaitSys)
  | .awaitSys => some (.sys, .awaitDev)
  | .awaitDev => some (.dev, .awaitTag)
  | .awaitTag => some (.tag, .awaitLen)
  | .awaitChecksumLow => some (.cklo, .awaitChecksumHigh)
  | .awaitResv0 => some (.resv0, .awaitResv1)
  | .awaitResv1 => some (.resv1, .awaitResv2)
  | .awaitResv2 => some (.resv2, .awaitSeq)
  | .awaitMark => none
  | .awaitLen => none
  | .awaitValue => none
  | .awaitChecksumHigh => none

/-- All that one parser step can do (42_frame_parser.md R130 to R149), with the pieces whose own lemmas say the rest. -/
theorem State.parse_cases (s : State) (b : Byte) :
    (s.pstate = .awaitMark ∧ b ≠ 0x7E ∧ s.parse b = (s, .incomplete)) ∨
    (s.pstate = .awaitMark ∧ b = 0x7E ∧ s.parse b = s.record .mark b (afterMark s.cfg.profile)) ∨
    (∃ r n, fixedField s.pstate = some (r, n) ∧ s.parse b = s.record r b n) ∨
    (s.pstate = .awaitLen ∧ s.cfg.lenMode = .raw ∧ s.parse b = s.recordLen b) ∨
    (s.pstate = .awaitLen ∧ s.cfg.lenMode = .ascii ∧ hexval b = none ∧
      s.parse b = s.parseFail .invalidAsciiDigit) ∨
    (∃ d, s.pstate = .awaitLen ∧ s.cfg.lenMode = .ascii ∧ hexval b = some d ∧ s.parse b = s.recordLen d) ∨
    (s.pstate = .awaitValue ∧ s.parse b = s.parseValue b) ∨
    (s.pstate = .awaitChecksumHigh ∧ s.cfg.profile = .trailer ∧
      s.parse b = ((s.setF .ckhi b).goto .awaitMark, .complete)) ∨
    (s.pstate = .awaitChecksumHigh ∧ s.cfg.profile ≠ .trailer ∧ s.parse b = s.record .ckhi b .awaitCalc) := by
  unfold State.parse
  cases hq : s.pstate <;> simp only [fixedField, reduceCtorEq, false_and, exists_false, false_or, or_false,
    true_and, Option.some.injEq, Prod.mk.injEq]
  case awaitMark =>
    by_cases hb : b = 0x7E
    · exact .inr ⟨hb, if_pos hb⟩
    · exact .inl ⟨hb, if_neg hb⟩
  case awaitLen =>
    unfold State.parseLen
    cases hm : s.cfg.lenMode
    · exact .inl ⟨rfl, rfl⟩
    · cases hh : hexval b
      · exact .inr (.inl ⟨rfl, rfl, rfl⟩)
      · exact .inr (.inr ⟨_, rfl, rfl, rfl⟩)
  case awaitChecksumHigh =>
    unfold State.parseChecksumHigh
    cases hp : s.cfg.profile
    · exact .inl ⟨rfl, rfl⟩
    · exact .inr ⟨by decide, rfl⟩
    · exact .inr ⟨by decide, rfl⟩
  all_goals exact ⟨_, _, ⟨rfl, rfl⟩, rfl⟩

/-- Every arm of `step(b)` leaves the rest of the block alone. -/
theorem State.parse_outside (s : State) (b : Byte) : SameOutsideParser s (s.parse b).1 := by
  have rec1 (r : FReg) (x : Byte) (q : PState) : SameOutsideParser s (s.record r x q).1 :=
    (s.setF_outside r x).trans (State.goto_outside _ _)
  have len1 (x : Byte) : SameOutsideParser s (s.recordLen x).1 := by
    rcases s.recordLen_cases x with ⟨-, h⟩ | ⟨-, -, h⟩ | ⟨-, -, h⟩ <;> rw [h] <;>
      exact ((s.setF_outside _ _).trans (State.setByteCnt_outside _ _)).trans (State.goto_outside _ _)
  have val1 : SameOutsideParser s (s.parseValue b).1 := by
    rcases s.parseValue_cases b with ⟨-, h⟩ | ⟨-, -, h⟩ | ⟨-, -, -, h⟩ | ⟨-, -, -, h⟩ <;> rw [h]
    · exact s.abandonFrame_outside
    · exact (s.valWrite_outside _ _).trans (State.setByteCnt_outside _ _)
    all_goals exact ((s.valWrite_outside _ _).trans (State.setByteCnt_outside _ _)).trans (State.goto_outside _ _)
  rcases s.parse_cases b with ⟨-, -, h⟩ | ⟨-, -, h⟩ | ⟨r, n, -, h⟩ | ⟨-, -, h⟩ | ⟨-, -, -, h⟩ | ⟨d, -, -, -, h⟩ |
    ⟨-, h⟩ | ⟨-, -, h⟩ | ⟨-, -, h⟩ <;> rw [h]
  · exact .refl s
  · exact rec1 _ _ _
  · exact rec1 _ _ _
  · exact len1 _
  · exact s.abandonFrame_outside
  · exact len1 _
  · exact val1
  · exact (s.setF_outside _ _).trans (State.goto_outside _ _)
  · exact rec1 _ _ _

/-- What a parser step leaves alone, in the words of the claims. -/
theorem SameOutsideParser.sameButLink {s t : State} (o : SameOutsideParser s t) : SameButLink s t := by
  have ports : ∀ q, t.port q = s.port q := fun q => by cases q; exacts [o.portP, o.portC]
  exact ⟨⟨fun a => by simp only [State.rbRead, o.rb, o.epoch], o.head, o.tail⟩, o.crc, fun q => by rw [ports],
    o.handled, o.cfg, fun q => by rw [ports], o.cur, o.grants, o.draws, o.epoch, o.resetReq⟩

/-- A parser step either fails the frame, counting one error, or counts none (42_frame_parser.md R149). -/
theorem State.parse_error_cases (s : State) (b : Byte) :
    ((s.parse b = s.parseFail .frameOverflow ∨ s.parse b = s.parseFail .invalidAsciiDigit) ∧
      (s.parse b).1.errorCount = s.errorCount + 1) ∨
    ((∀ c, (s.parse b).2 ≠ .error c) ∧ (s.parse b).1.errorCount = s.errorCount) := by
  have len1 (x : Byte) : (∀ c, (s.recordLen x).2 ≠ .error c) ∧ (s.recordLen x).1.errorCount = s.errorCount := by
    rcases s.recordLen_cases x with ⟨-, h⟩ | ⟨-, -, h⟩ | ⟨-, -, h⟩ <;> rw [h] <;>
      exact ⟨nofun, rfl⟩
  rcases s.parse_cases b with ⟨-, -, h⟩ | ⟨-, -, h⟩ | ⟨r, n, -, h⟩ | ⟨-, -, h⟩ | ⟨-, -, -, h⟩ | ⟨d, -, -, -, h⟩ |
    ⟨-, h⟩ | ⟨-, -, h⟩ | ⟨-, -, h⟩ <;> rw [h]
  case inr.inr.inr.inl => exact .inr (len1 _)
  case inr.inr.inr.inr.inl => exact .inl ⟨.inr rfl, rfl⟩
  case inr.inr.inr.inr.inr.inl => exact .inr (len1 _)
  case inr.inr.inr.inr.inr.inr.inl =>
    rcases s.parseValue_cases b with ⟨-, h⟩ | ⟨-, -, h⟩ | ⟨-, -, -, h⟩ | ⟨-, -, -, h⟩ <;> rw [h]
    · exact .inl ⟨.inl rfl, rfl⟩
    all_goals exact .inr ⟨nofun, rfl⟩
  all_goals exact .inr ⟨nofun, rfl⟩

/-- The value buffer after a parser step: one byte written at `BYTE_CNT`, and that only in AwaitValue with a length that
fits (42_frame_parser.md R143, R144). -/
theorem State.parse_val (s : State) (b : Byte) :
    (s.parse b).1.val = s.val ∨
    (s.pstate = .awaitValue ∧ s.lenFits = true ∧ (s.parse b).1.val = s.val.set s.byteCnt.toNat b) := by
  have len1 (x : Byte) : (s.recordLen x).1.val = s.val := by
    rcases s.recordLen_cases x with ⟨-, h⟩ | ⟨-, -, h⟩ | ⟨-, -, h⟩ <;> rw [h] <;> rfl
  rcases s.parse_cases b with ⟨-, -, h⟩ | ⟨-, -, h⟩ | ⟨r, n, -, h⟩ | ⟨-, -, h⟩ | ⟨-, -, -, h⟩ | ⟨d, -, -, -, h⟩ |
    ⟨hq, h⟩ | ⟨-, -, h⟩ | ⟨-, -, h⟩ <;> rw [h]
  case inr.inr.inr.inl => exact .inl (len1 _)
  case inr.inr.inr.inr.inr.inl => exact .inl (len1 _)
  case inr.inr.inr.inr.inr.inr.inl =>
    rcases s.parseValue_cases b with ⟨-, h⟩ | ⟨hl, -, h⟩ | ⟨hl, -, -, h⟩ | ⟨hl, -, -, h⟩ <;> rw [h]
    · exact .inl rfl
    all_goals exact .inr ⟨hq, hl, rfl⟩
  all_goals exact .inl rfl

end Sys2Proof.Machine
end

