-- ==== Sys2Proof/Laws/Ring.lean ====
section
/-! SUPPORT. The ring's arithmetic (40_ring_buffer.md R100) and what PUSH's and POP's bodies do to it. -/

namespace Sys2Proof.Machine

theorem cap_pos (c : Cfg) : 0 < c.cap := Nat.pow_pos (by decide)

theorem cap_le (c : Cfg) : c.cap ≤ 2 ^ 31 := Nat.pow_le_pow_right (by decide) c.k_le

theorem cap_dvd (c : Cfg) : c.cap ∣ 2 ^ 32 := Nat.pow_dvd_pow 2 (le_trans c.k_le (by decide))

theorem toNat_capWord (c : Cfg) : c.capWord.toNat = c.cap := by
  have := cap_le c
  simp only [Cfg.capWord, BitVec.toNat_ofNat]
  exact Nat.mod_eq_of_lt (by omega)

/-- `phys(x)` is `x` modulo `N` (40_ring_buffer.md R100). -/
theorem State.phys_eq_mod (s : State) (x : Word) : s.phys x = x.toNat % s.cfg.cap := by
  have h1 := cap_pos s.cfg
  have h2 := cap_le s.cfg
  have hw : (s.cfg.capWord - 1).toNat = 2 ^ s.cfg.k - 1 := by
    have h3 : (1 : Word).toNat = 1 := rfl
    rw [BitVec.toNat_sub, toNat_capWord, h3]
    simp only [Cfg.cap] at *
    omega
  rw [State.phys, BitVec.toNat_and, hw, Nat.and_two_pow_sub_one_eq_mod]
  rfl

theorem State.phys_lt (s : State) (x : Word) : s.phys x < s.cfg.cap := by
  rw [s.phys_eq_mod]
  exact Nat.mod_lt _ (cap_pos s.cfg)

theorem State.phys_congr {s t : State} (h : t.cfg = s.cfg) (x : Word) : t.phys x = s.phys x := by
  simp [State.phys, h]

/-- Logical indices less than `N` apart lie in different cells. -/
theorem State.phys_add_inj (s : State) (x : Word) {i j : Nat} (hi : i < s.cfg.cap) (hj : j < s.cfg.cap)
    (h : s.phys (x + BitVec.ofNat 32 i) = s.phys (x + BitVec.ofNat 32 j)) : i = j := by
  have hle := cap_le s.cfg
  rw [s.phys_eq_mod, s.phys_eq_mod] at h
  simp only [BitVec.toNat_add, BitVec.toNat_ofNat] at h
  rw [Nat.mod_mod_of_dvd _ (cap_dvd s.cfg), Nat.mod_mod_of_dvd _ (cap_dvd s.cfg),
    Nat.mod_eq_of_lt (show i < 2 ^ 32 by omega), Nat.mod_eq_of_lt (show j < 2 ^ 32 by omega)] at h
  have h' : i ≡ j [MOD s.cfg.cap] := Nat.ModEq.add_left_cancel' x.toNat h
  rw [Nat.ModEq, Nat.mod_eq_of_lt hi, Nat.mod_eq_of_lt hj] at h'
  exact h'

/-- The cell TAIL indexes is `used()` cells after the one HEAD indexes. -/
theorem State.tail_eq (s : State) : s.tail = s.head + BitVec.ofNat 32 s.usedCount.toNat := by
  rw [BitVec.ofNat_toNat, BitVec.setWidth_eq, State.usedCount]
  ring

theorem State.isFull_iff (s : State) : s.isFull = true ↔ s.usedCount.toNat = s.cfg.cap := by
  rw [State.isFull, beq_iff_eq, ← toNat_capWord]
  exact ⟨fun h => by rw [h], fun h => BitVec.eq_of_toNat_eq h⟩

theorem State.isEmpty_iff (s : State) : s.isEmpty = true ↔ s.usedCount.toNat = 0 := by
  simp only [State.isEmpty, beq_iff_eq, State.usedCount]
  constructor
  · intro h; simp [h]
  · intro h
    have : s.tail - s.head = 0 := BitVec.eq_of_toNat_eq (by simpa using h)
    have h2 : s.tail = s.head := by
      have := congrArg (· + s.head) this
      simpa using this
    exact h2.symm

theorem State.usedCount_pushByte (s : State) (b : Byte) (h : s.usedCount.toNat < s.cfg.cap) :
    (s.pushByte b).usedCount.toNat = s.usedCount.toNat + 1 := by
  have hle := cap_le s.cfg
  have e : (s.pushByte b).usedCount = s.usedCount + 1 := by
    simp only [State.usedCount, State.pushByte_tail, State.pushByte_head]
    ring
  have h3 : (1 : Word).toNat = 1 := rfl
  rw [e, BitVec.toNat_add, h3]
  omega

/-- POP's body on an empty ring (40_ring_buffer.md R102). -/
theorem State.popByte_none {s : State} (h : s.isEmpty = true) : s.popByte = none := by simp [State.popByte, h]

/-- POP's body on a ring that holds something (40_ring_buffer.md R102). -/
theorem State.popByte_some {s : State} (h : s.isEmpty = false) :
    s.popByte = some (s.rbRead (s.phys s.head), s.advanceHead) := by simp [State.popByte, h]

/-- All POP's body can do (40_ring_buffer.md R102). -/
theorem State.popByte_cases (s : State) :
    (s.isEmpty = true ∧ s.popByte = none) ∨
    (s.isEmpty = false ∧ s.popByte = some (s.rbRead (s.phys s.head), s.advanceHead)) := by
  cases h : s.isEmpty
  · exact .inr ⟨rfl, State.popByte_some h⟩
  · exact .inl ⟨rfl, State.popByte_none h⟩

theorem State.usedCount_pop (s : State) (h : s.isEmpty = false) :
    s.advanceHead.usedCount.toNat + 1 = s.usedCount.toNat := by
  have hne : s.usedCount.toNat ≠ 0 := fun h0 => by simp [(s.isEmpty_iff).2 h0] at h
  have e : s.advanceHead.usedCount = s.usedCount - 1 := by
    simp only [State.usedCount, State.advanceHead_head, State.advanceHead_tail]
    ring
  have := s.usedCount.isLt
  have h3 : (1 : Word).toNat = 1 := rfl
  rw [e, BitVec.toNat_sub, h3]
  omega

theorem State.held_length (s : State) : s.held.length = s.usedCount.toNat := by simp [State.held]

/-- The bytes held depend on the ring alone. -/
theorem State.held_congr {s t : State} (hc : t.cfg = s.cfg) (hr : SameRing s t) : t.held = s.held := by
  obtain ⟨h1, h2, h3⟩ := hr
  simp [State.held, State.usedCount, h2, h3, State.phys_congr hc, h1]

end Sys2Proof.Machine
end

