-- ==== Sys2Proof/Laws/Session.lean ====
section
/-! SUPPORT. All that `verify()` can do (43_link_session.md R172), and where a command's guards lead. -/

namespace Sys2Proof.Machine

/-- Behind its guard `verify()` matches or mismatches, and does nothing but the bookkeeping of the one it is
(43_link_session.md R172, R182). -/
theorem State.judge_cases (s : State) :
    (s.judge = (s.countValid, .valid) ∧ (s.cfg.profile = .pkt ∨ s.expected = s.frame.checksum)) ∨
    (s.judge = (s.countError, .mismatch) ∧ s.cfg.profile ≠ .pkt ∧ s.expected ≠ s.frame.checksum) := by
  unfold State.judge State.matched
  cases hp : s.cfg.profile <;> by_cases he : s.expected = s.frame.checksum <;> simp [he]

/-- The state `verify()` leaves behind its guard is one of two (43_link_session.md R172). -/
theorem State.judge_fst (s : State) : s.judge.1 = s.countValid ∨ s.judge.1 = s.countError := by
  rcases s.judge_cases with ⟨h, -⟩ | ⟨h, -⟩ <;> rw [h] <;> simp

/-- `verify()` refuses exactly a TRAILER or HEADER frame with `F.LEN > VCAP` (43_link_session.md R172). -/
theorem State.verify_cases (s : State) :
    (s.verify = some s.judge ∧ (s.cfg.profile = .pkt ∨ s.lenFits = true)) ∨
    (s.verify = none ∧ s.cfg.profile ≠ .pkt ∧ s.lenFits = false) := by
  unfold State.verify
  by_cases hp : s.cfg.profile = .pkt <;> cases hl : s.lenFits <;> simp [hp]

/-- All that `verify()` can do on a completed frame: a match, with the length checked first unless under PKT, or a
mismatch (43_link_session.md R172, 44_decode_adapter.md R190, 10_state.md R28). -/
theorem State.verifyCompleted_cases (s : State) :
    (s.verifyCompleted = (s.countValid, .valid) ∧
      (s.cfg.profile = .pkt ∨ (s.lenFits = true ∧ s.expected = s.frame.checksum))) ∨
    (s.verifyCompleted = (s.countError, .mismatch) ∧ s.cfg.profile ≠ .pkt ∧
      (s.lenFits = false ∨ s.expected ≠ s.frame.checksum)) := by
  unfold State.verifyCompleted
  rcases s.verify_cases with ⟨e, hg⟩ | ⟨e, hp, hl⟩ <;> rw [e]
  · rcases s.judge_cases with ⟨e, h⟩ | ⟨e, hp, h⟩ <;> rw [e]
    · exact .inl ⟨rfl, h.elim .inl fun h => hg.imp_right fun hg => ⟨hg, h⟩⟩
    · exact .inr ⟨rfl, hp, .inr h⟩
  · exact .inr ⟨rfl, hp, .inl hl⟩

/-- The state `verify()` leaves on a completed frame is one of two (43_link_session.md R172). -/
theorem State.verifyCompleted_fst (s : State) :
    s.verifyCompleted.1 = s.countValid ∨ s.verifyCompleted.1 = s.countError := by
  rcases s.verifyCompleted_cases with ⟨h, -⟩ | ⟨h, -⟩ <;> rw [h] <;> simp

/-- Where `verify()` does not refuse, that is what it does on a completed frame too (43_link_session.md R172). -/
theorem State.verifyCompleted_of_some {s : State} {r : State × Verdict} (h : s.verify = some r) :
    s.verifyCompleted = r := by rw [State.verifyCompleted, h]

/-- The transmit guards (43_link_session.md R176, R180): reason 4, then reason 5, then the command. -/
theorem State.transmitGuard_cases (s : State) (k : State → State) :
    (s.cfg.profile = .pkt ∧ s.transmitGuard k = s.illegal .profileLacksIt) ∨
    (s.cfg.profile ≠ .pkt ∧ s.lenFits = false ∧ s.transmitGuard k = s.illegal .lenAboveVcap) ∨
    (s.cfg.profile ≠ .pkt ∧ s.lenFits = true ∧ s.transmitGuard k = k s) := by
  unfold State.transmitGuard
  by_cases hp : s.cfg.profile = .pkt <;> cases hl : s.lenFits <;> simp [hp]

theorem State.lenFits_iff (s : State) : s.lenFits = true ↔ s.frame.len.toNat ≤ s.cfg.vcap := by simp [State.lenFits]

theorem State.lenFits_false_iff (s : State) : s.lenFits = false ↔ s.cfg.vcap < s.frame.len.toNat := by
  simp [State.lenFits]

section

variable (s : State)

/-! ### countValid -/

@[simp] theorem State.countValid_cfg : s.countValid.cfg = s.cfg := rfl
@[simp] theorem State.countValid_rb : s.countValid.rb = s.rb := rfl
@[simp] theorem State.countValid_head : s.countValid.head = s.head := rfl
@[simp] theorem State.countValid_tail : s.countValid.tail = s.tail := rfl
@[simp] theorem State.countValid_crc : s.countValid.crc = s.crc := rfl
@[simp] theorem State.countValid_frame : s.countValid.frame = s.frame := rfl
@[simp] theorem State.countValid_val : s.countValid.val = s.val := rfl
@[simp] theorem State.countValid_lastSeqRx : s.countValid.lastSeqRx = s.frame.seq := rfl
@[simp] theorem State.countValid_lastSeqTx : s.countValid.lastSeqTx = s.lastSeqTx := rfl
@[simp] theorem State.countValid_errorCount : s.countValid.errorCount = s.errorCount := rfl
@[simp] theorem State.countValid_validCount : s.countValid.validCount = s.validCount + 1 := rfl
@[simp] theorem State.countValid_pstate : s.countValid.pstate = s.pstate := rfl
@[simp] theorem State.countValid_byteCnt : s.countValid.byteCnt = s.byteCnt := rfl
@[simp] theorem State.countValid_portP : s.countValid.portP = s.portP := rfl
@[simp] theorem State.countValid_portC : s.countValid.portC = s.portC := rfl
@[simp] theorem State.countValid_handled : s.countValid.handled = s.handled := rfl
@[simp] theorem State.countValid_cur : s.countValid.cur = s.cur := rfl
@[simp] theorem State.countValid_grants : s.countValid.grants = s.grants := rfl
@[simp] theorem State.countValid_draws : s.countValid.draws = s.draws := rfl
@[simp] theorem State.countValid_epoch : s.countValid.epoch = s.epoch := rfl
@[simp] theorem State.countValid_resetReq : s.countValid.resetReq = s.resetReq := rfl

/-! ### countError -/

@[simp] theorem State.countError_cfg : s.countError.cfg = s.cfg := rfl
@[simp] theorem State.countError_rb : s.countError.rb = s.rb := rfl
@[simp] theorem State.countError_head : s.countError.head = s.head := rfl
@[simp] theorem State.countError_tail : s.countError.tail = s.tail := rfl
@[simp] theorem State.countError_crc : s.countError.crc = s.crc := rfl
@[simp] theorem State.countError_frame : s.countError.frame = s.frame := rfl
@[simp] theorem State.countError_val : s.countError.val = s.val := rfl
@[simp] theorem State.countError_lastSeqRx : s.countError.lastSeqRx = s.lastSeqRx := rfl
@[simp] theorem State.countError_lastSeqTx : s.countError.lastSeqTx = s.lastSeqTx := rfl
@[simp] theorem State.countError_errorCount : s.countError.errorCount = s.errorCount + 1 := rfl
@[simp] theorem State.countError_validCount : s.countError.validCount = s.validCount := rfl
@[simp] theorem State.countError_pstate : s.countError.pstate = s.pstate := rfl
@[simp] theorem State.countError_byteCnt : s.countError.byteCnt = s.byteCnt := rfl
@[simp] theorem State.countError_portP : s.countError.portP = s.portP := rfl
@[simp] theorem State.countError_portC : s.countError.portC = s.portC := rfl
@[simp] theorem State.countError_handled : s.countError.handled = s.handled := rfl
@[simp] theorem State.countError_cur : s.countError.cur = s.cur := rfl
@[simp] theorem State.countError_grants : s.countError.grants = s.grants := rfl
@[simp] theorem State.countError_draws : s.countError.draws = s.draws := rfl
@[simp] theorem State.countError_epoch : s.countError.epoch = s.epoch := rfl
@[simp] theorem State.countError_resetReq : s.countError.resetReq = s.resetReq := rfl

/-! ### clearCounters -/

@[simp] theorem State.clearCounters_cfg : s.clearCounters.cfg = s.cfg := rfl
@[simp] theorem State.clearCounters_rb : s.clearCounters.rb = s.rb := rfl
@[simp] theorem State.clearCounters_head : s.clearCounters.head = s.head := rfl
@[simp] theorem State.clearCounters_tail : s.clearCounters.tail = s.tail := rfl
@[simp] theorem State.clearCounters_crc : s.clearCounters.crc = s.crc := rfl
@[simp] theorem State.clearCounters_frame : s.clearCounters.frame = s.frame := rfl
@[simp] theorem State.clearCounters_val : s.clearCounters.val = s.val := rfl
@[simp] theorem State.clearCounters_lastSeqRx : s.clearCounters.lastSeqRx = 0 := rfl
@[simp] theorem State.clearCounters_lastSeqTx : s.clearCounters.lastSeqTx = 0 := rfl
@[simp] theorem State.clearCounters_errorCount : s.clearCounters.errorCount = 0 := rfl
@[simp] theorem State.clearCounters_validCount : s.clearCounters.validCount = 0 := rfl
@[simp] theorem State.clearCounters_pstate : s.clearCounters.pstate = s.pstate := rfl
@[simp] theorem State.clearCounters_byteCnt : s.clearCounters.byteCnt = s.byteCnt := rfl
@[simp] theorem State.clearCounters_portP : s.clearCounters.portP = s.portP := rfl
@[simp] theorem State.clearCounters_portC : s.clearCounters.portC = s.portC := rfl
@[simp] theorem State.clearCounters_handled : s.clearCounters.handled = s.handled := rfl
@[simp] theorem State.clearCounters_cur : s.clearCounters.cur = s.cur := rfl
@[simp] theorem State.clearCounters_grants : s.clearCounters.grants = s.grants := rfl
@[simp] theorem State.clearCounters_draws : s.clearCounters.draws = s.draws := rfl
@[simp] theorem State.clearCounters_epoch : s.clearCounters.epoch = s.epoch := rfl
@[simp] theorem State.clearCounters_resetReq : s.clearCounters.resetReq = s.resetReq := rfl

@[simp] theorem State.packed_cfg (f : Byte) : (s.packed f).cfg = s.cfg := rfl
@[simp] theorem State.packed_rb (f : Byte) : (s.packed f).rb = s.rb := rfl
@[simp] theorem State.packed_head (f : Byte) : (s.packed f).head = s.head := rfl
@[simp] theorem State.packed_tail (f : Byte) : (s.packed f).tail = s.tail := rfl
@[simp] theorem State.packed_crc (f : Byte) : (s.packed f).crc = s.crc := rfl
@[simp] theorem State.packed_val (f : Byte) : (s.packed f).val = s.val := rfl
@[simp] theorem State.packed_lastSeqRx (f : Byte) : (s.packed f).lastSeqRx = s.lastSeqRx := rfl
@[simp] theorem State.packed_errorCount (f : Byte) : (s.packed f).errorCount = s.errorCount := rfl
@[simp] theorem State.packed_validCount (f : Byte) : (s.packed f).validCount = s.validCount := rfl
@[simp] theorem State.packed_pstate (f : Byte) : (s.packed f).pstate = s.pstate := rfl
@[simp] theorem State.packed_byteCnt (f : Byte) : (s.packed f).byteCnt = s.byteCnt := rfl
@[simp] theorem State.packed_portP (f : Byte) : (s.packed f).portP = s.portP := rfl
@[simp] theorem State.packed_portC (f : Byte) : (s.packed f).portC = s.portC := rfl
@[simp] theorem State.packed_handled (f : Byte) : (s.packed f).handled = s.handled := rfl
@[simp] theorem State.packed_cur (f : Byte) : (s.packed f).cur = s.cur := rfl
@[simp] theorem State.packed_grants (f : Byte) : (s.packed f).grants = s.grants := rfl
@[simp] theorem State.packed_draws (f : Byte) : (s.packed f).draws = s.draws := rfl
@[simp] theorem State.packed_epoch (f : Byte) : (s.packed f).epoch = s.epoch := rfl
@[simp] theorem State.packed_resetReq (f : Byte) : (s.packed f).resetReq = s.resetReq := rfl
@[simp] theorem State.packed_lastSeqTx (f : Byte) : (s.packed f).lastSeqTx = s.lastSeqTx + 1 := rfl

end

end Sys2Proof.Machine
end

