-- ==== Sys2Proof/Laws/Effect.lean ====
section
/-! SUPPORT. Said once, all that one command can do to the block: the change of its own state (`Change`), and how it ends
(`Effect`). Claims about every command go by cases on these, never by unfolding `exec`. -/

namespace Sys2Proof.Machine

/-- What command `i` can make of the block's own state: every change, with the guard it needs. -/
inductive Change : Instr → State → State → Prop
  | none (i : Instr) (s : State) : Change i s s
  | push (b : Byte) (s : State) (hc : s.cur = .p) (hf : s.isFull = false) : Change (.push b) s (s.pushByte b)
  | pushall (ps : List Byte) (b : Byte) (s : State) (hc : s.cur = .p) (hf : s.isFull = false) :
    Change (.pushall ps) s (s.pushByte b)
  | pop (s : State) (hc : s.cur = .c) (he : s.isEmpty = false) : Change .pop s s.advanceHead
  | popall (m : Half) (s : State) (hc : s.cur = .c) (he : s.isEmpty = false) : Change (.popall m) s s.advanceHead
  | flush (s : State) (hc : s.cur = .c) (hq : s.producerQuiet = true) : Change .flush s s.clearRing
  | crcinit (s : State) (hc : s.cur = .c) : Change .crcinit s (s.setCrc 0xFFFF)
  | crcseed (v : Half) (s : State) (hc : s.cur = .c) : Change (.crcseed v) s (s.setCrc v)
  | crcacc (b : Byte) (s : State) (hc : s.cur = .c) : Change (.crcacc b) s (s.setCrc (crcUpd s.crc b))
  | step (b : Byte) (s : State) (hc : s.cur = .c) : Change (.step b) s (s.parse b).1
  | verify (s : State) (hc : s.cur = .c) : Change .verify s s.judge.1
  | pack (f : Byte) (s : State) (hc : s.cur = .c) (hl : s.lenFits = true) : Change (.pack f) s (s.packed f)
  | clrcnt (s : State) (hc : s.cur = .c) : Change .clrcnt s s.clearCounters
  | decode1 (s : State) (hc : s.cur = .c) (he : s.isEmpty = false)
      (hx : (s.advanceHead.parse (s.rbRead (s.phys s.head))).2 ≠ .complete) :
    Change .decode1 s (s.advanceHead.parse (s.rbRead (s.phys s.head))).1
  | decode1Complete (s : State) (hc : s.cur = .c) (he : s.isEmpty = false)
      (hx : (s.advanceHead.parse (s.rbRead (s.phys s.head))).2 = .complete) :
    Change .decode1 s (s.advanceHead.parse (s.rbRead (s.phys s.head))).1.verifyCompleted.1
  | process (s : State) (hc : s.cur = .c) (he : s.isEmpty = false)
      (hx : (s.advanceHead.parse (s.rbRead (s.phys s.head))).2 ≠ .complete) :
    Change .process s (s.advanceHead.parse (s.rbRead (s.phys s.head))).1
  | processInvalid (s : State) (hc : s.cur = .c) (he : s.isEmpty = false)
      (hx : (s.advanceHead.parse (s.rbRead (s.phys s.head))).2 = .complete)
      (hv : (s.advanceHead.parse (s.rbRead (s.phys s.head))).1.verifyCompleted.2 ≠ .valid) :
    Change .process s (s.advanceHead.parse (s.rbRead (s.phys s.head))).1.verifyCompleted.1
  | processValid (s u : State) (hc : s.cur = .c) (he : s.isEmpty = false)
      (hx : s.advanceHead.parse (s.rbRead (s.phys s.head)) = (u, .complete))
      (hv : u.verifyCompleted = (u.countValid, .valid)) :
    Change .process s (u.countValid.emitHandle u.countValid.snapshot)
  | wrf (a : Byte) (v : Byte) (r : FReg) (s : State) (hc : s.cur = .c) (hr : fregOf a = some r)
      (hl : ¬ (r = .len ∧ s.pstate = .awaitValue)) : Change (.wrf a v) s (s.setF r v)
  | wrv (b : Byte) (a : Half) (s : State) (hc : s.cur = .c) (ha : a.toNat < s.cfg.vcap) :
    Change (.wrv b a) s (s.valWrite a.toNat b)

/-- How far a bulk command that goes on has got. -/
inductive Progress : Instr → State → Running → Prop
  | pushall (ps : List Byte) (s : State) (hc : s.cur = .p) (hn : s.pushallPosition < ps.length) :
    Progress (.pushall ps) s (.pushall ps (s.pushallPosition + 1))
  | popall (m : Half) (b : Byte) (s : State) (hc : s.cur = .c) (hn : s.popallOut.length < m.toNat) :
    Progress (.popall m) s (.popall m (s.popallOut ++ [b]))
  | crc16 (ps : List Byte) (b : Byte) (s : State) (hc : s.cur = .c) (hb : ps[s.crc16Position.1]? = some b) :
    Progress (.crc16 ps) s (.crc16 ps (s.crc16Position.1 + 1) (crcUpd s.crc16Position.2 b))
  | process (s : State) (hc : s.cur = .c) : Progress .process s .process

/-- How a command ends that answers next: it answers; it ends a bulk command and answers; or it is a bulk command and
goes on. -/
inductive Effect (i : Instr) (s : State) : State → Prop
  | answer (u : State) (rs : List Resp) (h : Change i s u) : Effect i s (u.respondAll rs)
  | finish (u : State) (rs : List Resp) (h : Change i s u) : Effect i s ((u.setRunning none).respondAll rs)
  | goOn (u : State) (r : Running) (h : Change i s u) (hr : Progress i s r) : Effect i s (u.setRunning (some r))

theorem Effect.illegal (i : Instr) (s : State) (r : Reason) : Effect i s (s.illegal r) := .answer s _ (.none i s)

theorem Effect.onlyP {i : Instr} {s : State} {k : State → State} (h : s.cur = .p → Effect i s (k s)) :
    Effect i s (s.onlyP k) := by
  cases hc : s.cur
  · rw [State.onlyP_p hc]; exact h hc
  · rw [State.onlyP_c hc]; exact .illegal i s _

theorem Effect.onlyC {i : Instr} {s : State} {k : State → State} (h : s.cur = .c → Effect i s (k s)) :
    Effect i s (s.onlyC k) := by
  cases hc : s.cur
  · rw [State.onlyC_p hc]; exact .illegal i s _
  · rw [State.onlyC_c hc]; exact h hc

theorem Effect.transmitGuard {i : Instr} {s : State} {k : State → State} (h : s.lenFits = true → Effect i s (k s)) :
    Effect i s (s.transmitGuard k) := by
  rcases s.transmitGuard_cases k with ⟨-, e⟩ | ⟨-, -, e⟩ | ⟨-, hl, e⟩ <;> rw [e]
  · exact .illegal i s _
  · exact .illegal i s _
  · exact h hl

theorem Effect.decode1 {s : State} (hc : s.cur = .c) : Effect .decode1 s (
    match s.popByte with
    | none => s.respond .none 0
    | some (b, t) =>
      match t.parse b with
      | (u, .incomplete) => u.respond .incomplete 0
      | (u, .error c) => u.respond .error c.code
      | (u, .complete) =>
        match u.verifyCompleted with
        | (v, .valid) => v.respond .valid 0
        | (v, .mismatch) => v.respond .error Cause.checksumMismatch.code) := by
  rcases s.popByte_cases with ⟨-, e⟩ | ⟨he, e⟩ <;> rw [e]
  · exact .answer s _ (.none _ s)
  · dsimp only
    have h1 := Change.decode1 s hc he
    have h2 := Change.decode1Complete s hc he
    revert h1 h2
    rcases s.advanceHead.parse (s.rbRead (s.phys s.head)) with ⟨u, _ | _ | c⟩ <;> intro h1 h2
    · exact .answer u _ (h1 nofun)
    · have h3 := h2 rfl
      revert h3
      dsimp only
      rcases u.verifyCompleted with ⟨v, _ | _⟩ <;> exact fun h3 => .answer v _ h3
    · exact .answer u _ (h1 nofun)

theorem Effect.process {s : State} (hc : s.cur = .c) : Effect .process s (
    match s.popByte with
    | none => (s.setRunning none).respond .ok 0
    | some (b, t) =>
      match t.parse b with
      | (u, .incomplete) => u.setRunning (some .process)
      | (u, .error _) => u.setRunning (some .process)
      | (u, .complete) =>
        match u.verifyCompleted with
        | (v, .valid) => (v.emitHandle v.snapshot).setRunning (some .process)
        | (v, .mismatch) => v.setRunning (some .process)) := by
  rcases s.popByte_cases with ⟨-, e⟩ | ⟨he, e⟩ <;> rw [e]
  · exact .finish s _ (.none _ s)
  · dsimp only
    have h1 := Change.process s hc he
    have h2 := Change.processInvalid s hc he
    have h3 := fun u => Change.processValid s u hc he
    have go : Progress .process s .process := .process s hc
    revert h1 h2 h3
    rcases s.advanceHead.parse (s.rbRead (s.phys s.head)) with ⟨u, _ | _ | c⟩ <;> intro h1 h2 h3
    · exact .goOn u _ (h1 nofun) go
    · dsimp only at h2 ⊢
      rcases u.verifyCompleted_cases with ⟨e, -⟩ | ⟨e, -⟩ <;> rw [e]
      · exact .goOn _ _ (h3 u rfl e) go
      · rw [e] at h2; exact .goOn _ _ (h2 rfl nofun) go
    · exact .goOn u _ (h1 nofun) go

/-- Every command that answers next has one of these effects. -/
theorem exec_effect {i : Instr} {s t : State} (h : exec i s = .next t) : Effect i s t := by
  cases i
  case flush =>
    rcases execFlush_cases s with ⟨-, e⟩ | ⟨hc, hq, e⟩ | ⟨-, -, e⟩ <;> rw [e] at h <;> cases h
    · exact .illegal _ s _
    · exact .answer _ _ (.flush s hc hq)
  all_goals injection h with h; subst h
  case push b =>
    refine .onlyP fun hc => ?_
    cases hf : s.isFull
    · exact .answer _ _ (.push b s hc hf)
    · exact .answer s _ (.none _ s)
  case pop =>
    refine .onlyC fun hc => ?_
    rcases s.popByte_cases with ⟨-, e⟩ | ⟨he, e⟩ <;> rw [e]
    · exact .answer s _ (.none _ s)
    · exact .answer _ _ (.pop s hc he)
  case peek =>
    refine .onlyC fun hc => ?_
    rcases s.popByte_cases with ⟨-, e⟩ | ⟨he, e⟩ <;> rw [e]
    · exact .answer s _ (.none _ s)
    · exact .answer s _ (.none _ s)
  case pushall ps =>
    refine .onlyP fun hc => ?_
    cases hb : ps[s.pushallPosition]? with
    | none => exact .finish s _ (.none _ s)
    | some b =>
      cases hf : s.isFull
      · exact .goOn _ _ (.pushall ps b s hc hf) (.pushall ps s hc (List.getElem?_eq_some_iff.1 hb).1)
      · exact .finish s _ (.none _ s)
  case popall m =>
    refine .onlyC fun hc => ?_
    by_cases hn : m.toNat ≤ s.popallOut.length
    · rw [if_pos hn]; exact .finish s _ (.none _ s)
    · rw [if_neg hn]
      rcases s.popByte_cases with ⟨-, e⟩ | ⟨he, e⟩ <;> rw [e]
      · exact .finish s _ (.none _ s)
      · exact .goOn _ _ (.popall m s hc he) (.popall m _ s hc (by omega))
  case used => exact .answer s _ (.none _ s)
  case free => exact .answer s _ (.none _ s)
  case empty => exact .answer s _ (.none _ s)
  case full => exact .answer s _ (.none _ s)
  case crcinit => exact .onlyC fun hc => .answer _ _ (.crcinit s hc)
  case crcseed v => exact .onlyC fun hc => .answer _ _ (.crcseed v s hc)
  case crcacc b => exact .onlyC fun hc => .answer _ _ (.crcacc b s hc)
  case crcrd => exact .onlyC fun hc => .answer s _ (.none _ s)
  case crc16 ps =>
    refine .onlyC fun hc => ?_
    cases hb : ps[s.crc16Position.1]? with
    | none => exact .finish s _ (.none _ s)
    | some b => exact .goOn s _ (.none _ s) (.crc16 ps b s hc hb)
  case step b =>
    refine .onlyC fun hc => ?_
    have h1 := Change.step b s hc
    revert h1
    rcases s.parse b with ⟨u, _ | _ | c⟩ <;> exact fun h1 => .answer u _ h1
  case verify =>
    refine .onlyC fun hc => ?_
    have h1 := Change.verify s hc
    rcases s.verify_cases with ⟨e, -⟩ | ⟨e, -⟩ <;> rw [e]
    · revert h1
      rcases s.judge with ⟨u, _ | _⟩ <;> exact fun h1 => .answer u _ h1
    · exact .illegal _ s _
  case pack f => exact .onlyC fun hc => .transmitGuard fun hl => .answer _ _ (.pack f s hc hl)
  case txb a =>
    refine .onlyC fun hc => .transmitGuard fun hl => ?_
    split
    · exact .answer s _ (.none _ s)
    · exact .illegal _ s _
  case clrcnt => exact .onlyC fun hc => .answer _ _ (.clrcnt s hc)
  case decode1 => exact .onlyC fun hc => .decode1 hc
  case process => exact .onlyC fun hc => .process hc
  case rdf a =>
    refine .onlyC fun hc => ?_
    cases fregOf a
    · exact .illegal _ s _
    · exact .answer s _ (.none _ s)
  case wrf a v =>
    refine .onlyC fun hc => ?_
    cases hr : fregOf a with
    | none => exact .illegal _ s _
    | some r =>
      dsimp only
      split
      · exact .illegal _ s _
      · rename_i hl; exact .answer _ _ (.wrf a v r s hc hr hl)
  case rdv a =>
    refine .onlyC fun hc => ?_
    split
    · exact .answer s _ (.none _ s)
    · exact .illegal _ s _
  case wrv b a =>
    refine .onlyC fun hc => ?_
    split
    · rename_i ha; exact .answer _ _ (.wrv b a s hc ha)
    · exact .illegal _ s _
  case rds a =>
    cases sregOf a
    · exact .illegal _ s _
    · exact .answer s _ (.none _ s)

/-- The part of the state no command changes but by answering or going on. -/
structure SameFixed (s t : State) : Prop where
  cfg : t.cfg = s.cfg
  portP : t.portP = s.portP
  portC : t.portC = s.portC
  cur : t.cur = s.cur
  grants : t.grants = s.grants
  draws : t.draws = s.draws
  epoch : t.epoch = s.epoch
  resetReq : t.resetReq = s.resetReq

theorem SameOutsideParser.fixed {s t : State} (o : SameOutsideParser s t) : SameFixed s t :=
  ⟨o.cfg, o.portP, o.portC, o.cur, o.grants, o.draws, o.epoch, o.resetReq⟩

theorem State.judge_fixed (s : State) : SameFixed s s.judge.1 := by
  rcases s.judge_fst with h | h <;> rw [h] <;> constructor <;> rfl

theorem State.verifyCompleted_fixed (s : State) : SameFixed s s.verifyCompleted.1 := by
  rcases s.verifyCompleted_fst with h | h <;> rw [h] <;> constructor <;> rfl

theorem SameFixed.trans {s t u : State} (h : SameFixed s t) (k : SameFixed t u) : SameFixed s u :=
  ⟨k.cfg.trans h.cfg, k.portP.trans h.portP, k.portC.trans h.portC, k.cur.trans h.cur, k.grants.trans h.grants,
    k.draws.trans h.draws, k.epoch.trans h.epoch, k.resetReq.trans h.resetReq⟩

theorem State.advanceHead_fixed (s : State) : SameFixed s s.advanceHead := by constructor <;> rfl

/-- No command changes it. -/
theorem Change.fixed {i : Instr} {s u : State} (h : Change i s u) : SameFixed s u := by
  have pop : SameFixed s (s.advanceHead.parse (s.rbRead (s.phys s.head))).1 :=
    s.advanceHead_fixed.trans (State.parse_outside _ _).fixed
  cases h
  case step b _ => exact (s.parse_outside b).fixed
  case verify => exact s.judge_fixed
  case decode1 => exact pop
  case decode1Complete => exact pop.trans (State.verifyCompleted_fixed _)
  case process => exact pop
  case processInvalid => exact pop.trans (State.verifyCompleted_fixed _)
  case processValid u _ _ _ hx =>
    rw [hx] at pop
    exact pop.trans (by constructor <;> rfl)
  all_goals constructor <;> rfl

/-- Ring storage and the two indices are those of `s`. -/
def SameCells (s u : State) : Prop := u.rb = s.rb ∧ u.head = s.head ∧ u.tail = s.tail

theorem SameOutsideParser.cells {s t : State} (o : SameOutsideParser s t) : SameCells s t := ⟨o.rb, o.head, o.tail⟩

theorem State.judge_cells (s : State) : SameCells s s.judge.1 := by
  rcases s.judge_fst with h | h <;> rw [h] <;> exact ⟨rfl, rfl, rfl⟩

theorem State.verifyCompleted_cells (s : State) : SameCells s s.verifyCompleted.1 := by
  rcases s.verifyCompleted_fst with h | h <;> rw [h] <;> exact ⟨rfl, rfl, rfl⟩

theorem SameCells.trans {s t u : State} (h : SameCells s t) (k : SameCells t u) : SameCells s u :=
  ⟨k.1.trans h.1, k.2.1.trans h.2.1, k.2.2.trans h.2.2⟩

/-- All that a command can do to the ring: nothing, one push into a ring that is not full, one pop from a ring that is
not empty, or emptying it. -/
theorem Change.ring {i : Instr} {s u : State} (h : Change i s u) :
    SameCells s u ∨ (∃ b, s.isFull = false ∧ SameCells (s.pushByte b) u) ∨
    (s.isEmpty = false ∧ SameCells s.advanceHead u) ∨ (i = .flush ∧ SameCells s.clearRing u) := by
  have pop : SameCells s.advanceHead (s.advanceHead.parse (s.rbRead (s.phys s.head))).1 :=
    (State.parse_outside _ _).cells
  cases h
  case push b hc hf => exact .inr (.inl ⟨b, by assumption, rfl, rfl, rfl⟩)
  case pushall b hc hf => exact .inr (.inl ⟨b, by assumption, rfl, rfl, rfl⟩)
  case pop => exact .inr (.inr (.inl ⟨by assumption, rfl, rfl, rfl⟩))
  case popall => exact .inr (.inr (.inl ⟨by assumption, rfl, rfl, rfl⟩))
  case flush => exact .inr (.inr (.inr ⟨rfl, rfl, rfl, rfl⟩))
  case step b _ => exact .inl (s.parse_outside b).cells
  case verify => exact .inl s.judge_cells
  case decode1 => exact .inr (.inr (.inl ⟨by assumption, pop⟩))
  case decode1Complete => exact .inr (.inr (.inl ⟨by assumption, pop.trans (State.verifyCompleted_cells _)⟩))
  case process => exact .inr (.inr (.inl ⟨by assumption, pop⟩))
  case processInvalid => exact .inr (.inr (.inl ⟨by assumption, pop.trans (State.verifyCompleted_cells _)⟩))
  case processValid u _ _ _ hx =>
    rw [hx] at pop
    exact .inr (.inr (.inl ⟨by assumption, pop⟩))
  all_goals exact .inl ⟨rfl, rfl, rfl⟩

end Sys2Proof.Machine
end

