-- ==== Sys2Proof/Laws/PerInstr.lean ====
section
/-! SUPPORT. Facts proved command by command. `BeatLength`: the header beat alone says how many beats a command has
(30_encoding.md R77). -/

namespace Sys2Proof.Laws.BeatLength

/-- A command that has an encoding is as many beats long as its header beat announces (30_encoding.md R77). -/
def Statement (i : Instr) : Prop := i.wf = true → (encode i).length = 1 + payloadBeats (headerOf i)

/-- What every lemma below needs of its command: the announced number. -/
theorem of_header {i : Instr} (h : i.wf = true → payloadBeats (headerOf i) = i.payload.length) : Statement i :=
  fun hw => by rw [encode_length, h hw]

theorem push (b : Byte) : Statement (.push b) := of_header fun _ => by simp [headerOf, payloadBeats, Instr.payload]

theorem pop : Statement .pop := of_header fun _ => by simp [headerOf, payloadBeats, Instr.payload]

theorem peek : Statement .peek := of_header fun _ => by simp [headerOf, payloadBeats, Instr.payload]

theorem pushall (ps : List Byte) : Statement (.pushall ps) := of_header fun hw => by
  have hl : ps.length ≤ 65535 := (Instr.wf_iff _).1 hw
  simp only [headerOf, payloadBeats, opOf_beatOf, immOf_beatOf, BitVec.toNat_ofNat, Instr.payload]
  exact Nat.mod_eq_of_lt (by omega)

theorem popall (n : Half) : Statement (.popall n) := of_header fun _ => by simp [headerOf, payloadBeats, Instr.payload]

theorem used : Statement .used := of_header fun _ => by simp [headerOf, payloadBeats, Instr.payload]

theorem free : Statement .free := of_header fun _ => by simp [headerOf, payloadBeats, Instr.payload]

theorem empty : Statement .empty := of_header fun _ => by simp [headerOf, payloadBeats, Instr.payload]

theorem full : Statement .full := of_header fun _ => by simp [headerOf, payloadBeats, Instr.payload]

theorem flush : Statement .flush := of_header fun _ => by simp [headerOf, payloadBeats, Instr.payload]

theorem crcinit : Statement .crcinit := of_header fun _ => by simp [headerOf, payloadBeats, Instr.payload]

theorem crcseed (v : Half) : Statement (.crcseed v) := of_header fun _ => by simp [headerOf, payloadBeats, Instr.payload]

theorem crcacc (b : Byte) : Statement (.crcacc b) := of_header fun _ => by simp [headerOf, payloadBeats, Instr.payload]

theorem crcrd : Statement .crcrd := of_header fun _ => by simp [headerOf, payloadBeats, Instr.payload]

theorem crc16 (ps : List Byte) : Statement (.crc16 ps) := of_header fun hw => by
  have hl : ps.length ≤ 65535 := (Instr.wf_iff _).1 hw
  simp only [headerOf, payloadBeats, opOf_beatOf, immOf_beatOf, BitVec.toNat_ofNat, Instr.payload]
  exact Nat.mod_eq_of_lt (by omega)

theorem step (b : Byte) : Statement (.step b) := of_header fun _ => by simp [headerOf, payloadBeats, Instr.payload]

theorem verify : Statement .verify := of_header fun _ => by simp [headerOf, payloadBeats, Instr.payload]

theorem pack (f : Byte) : Statement (.pack f) := of_header fun _ => by simp [headerOf, payloadBeats, Instr.payload]

theorem txb (a : Half) : Statement (.txb a) := of_header fun _ => by simp [headerOf, payloadBeats, Instr.payload]

theorem clrcnt : Statement .clrcnt := of_header fun _ => by simp [headerOf, payloadBeats, Instr.payload]

theorem decode1 : Statement .decode1 := of_header fun _ => by simp [headerOf, payloadBeats, Instr.payload]

theorem process : Statement .process := of_header fun _ => by simp [headerOf, payloadBeats, Instr.payload]

theorem rdf (a : Byte) : Statement (.rdf a) := of_header fun _ => by simp [headerOf, payloadBeats, Instr.payload]

theorem wrf (a : Byte) (v : Byte) : Statement (.wrf a v) := of_header fun _ => by simp [headerOf, payloadBeats, Instr.payload]

theorem rdv (a : Half) : Statement (.rdv a) := of_header fun _ => by simp [headerOf, payloadBeats, Instr.payload]

theorem wrv (v : Byte) (a : Half) : Statement (.wrv v a) := of_header fun _ => by simp [headerOf, payloadBeats, Instr.payload]

theorem rds (a : Byte) : Statement (.rds a) := of_header fun _ => by simp [headerOf, payloadBeats, Instr.payload]

end Sys2Proof.Laws.BeatLength
end

