-- ==== Sys2Proof/Laws/Pseudo.lean ====
section
/-! SUPPORT. What repeating a command until it is answered NONE can end in (30_encoding.md R84, DRAIN), and what
SETFRAME's lines are. -/

namespace Sys2Proof.Machine

/-- Where the repetition ends in a next state, NONE is the last answer there. -/
theorem repeatUntilNone_answered {q : Port} {one : State → Option Result} {m : Nat} {s t : State}
    (h : repeatUntilNone q one m s = some (.next t)) : t.answeredNone q = true := by
  induction m generalizing s with
  | zero => cases h
  | succ m ih =>
    rw [repeatUntilNone] at h
    split at h
    · split at h
      · cases h; assumption
      · exact ih h
    · cases h
    · cases h
    · cases h

/-- A larger bound on the repetitions changes nothing once one is enough. -/
theorem repeatUntilNone_succ {q : Port} {one : State → Option Result} {m : Nat} {s : State} {r : Result}
    (h : repeatUntilNone q one m s = some r) : repeatUntilNone q one (m + 1) s = some r := by
  induction m generalizing s with
  | zero => cases h
  | succ m ih =>
    rw [repeatUntilNone] at h ⊢
    split at h
    · split at h
      · rename_i ha
        rw [if_pos ha]; exact h
      · rename_i ha
        rw [if_neg ha]; exact ih h
    · exact h
    · exact h
    · cases h

/-- Where the steps sufficed the command has responded: nothing is in flight on the port. -/
theorem State.untilFree_free {n : Nat} {q : Port} {s t : State} (h : s.untilFree n q = some (.next t)) :
    (t.port q).free = true := by
  induction n generalizing s with
  | zero =>
    rw [State.untilFree] at h
    split at h
    · cases h; assumption
    · cases h
  | succ n ih =>
    rw [State.untilFree] at h
    split at h
    · cases h; assumption
    · split at h
      · exact ih h
      · cases h
      · cases h

/-- With at most 255 values SETFRAME's second line is a WRF of the number of values (30_encoding.md R83, R84). -/
theorem pseudoSetframe_of_fits (tag : Byte) {vs : List Byte} (h : vs.length ≤ 255) :
    pseudoSetframe tag vs =
      some (headerOf (.wrf 5 tag) :: headerOf (.wrf 6 (BitVec.ofNat 8 vs.length)) :: storeValues 0 vs) := by
  have hl : BitVec.ofNat 16 vs.length = (BitVec.ofNat 8 vs.length).setWidth 16 := by
    apply BitVec.eq_of_toNat_eq
    simp only [BitVec.toNat_ofNat, BitVec.toNat_setWidth]
    omega
  rw [pseudoSetframe, if_pos (by omega), hl]
  rfl

/-- With 256 to 65535 values SETFRAME's second line is refused, ILLEGAL 2 (30_encoding.md R72, R81). -/
theorem pseudoSetframe_refused (tag : Byte) {vs : List Byte} (h : 255 < vs.length) (h' : vs.length ≤ 65535) :
    ∃ cw, pseudoSetframe tag vs = some (headerOf (.wrf 5 tag) :: cw :: storeValues 0 vs) ∧
      decode [cw] = .illegal .mustBeZero [] := by
  refine ⟨_, by rw [pseudoSetframe, if_pos h'], ?_⟩
  have hi : (BitVec.ofNat 16 vs.length).extractLsb' 8 8 ≠ 0 := by
    intro e
    have e : _ = 0 := congrArg BitVec.toNat e
    simp only [BitVec.extractLsb'_toNat, BitVec.toNat_ofNat, Nat.shiftRight_eq_div_pow] at e
    omega
  have hf : fmtWrf 6#8 (BitVec.ofNat 16 vs.length) = .error .mustBeZero := if_neg hi
  simp [decode, payloadBeats, decodeHeader, decodeFields, hf]

end Sys2Proof.Machine
end

