-- ==== Sys2Proof/Tests/Slice0.lean ====
section
/-! SUPPORT. Named tests: words written out from the spec's encodings, ill-formed commands refused, one step each from
the vectors of 95_test_vectors.md (named in the comments), and for every claim with hypotheses a state that meets them. -/

namespace Sys2Proof.Tests

open Sys2Proof.Machine

/-! ### Small states -/

/-- `N = 4`, `VCAP = 4`, the vectors' identity. -/
def cfg (p : Profile) : Cfg :=
  { k := 2, vcap := 4, localSys := 0x01, localDev := 0x02, profile := p, lenMode := .raw,
    k_le := by decide, vcap_pos := by decide, vcap_le := by decide, ascii_pkt := nofun }

def cfgAscii : Cfg :=
  { k := 2, vcap := 4, localSys := 0x01, localDev := 0x02, profile := .pkt, lenMode := .ascii,
    k_le := by decide, vcap_pos := by decide, vcap_le := by decide, ascii_pkt := fun _ => rfl }

def zeroFrame : Frame :=
  { mark := 0, calcFlag := 0, seq := 0, sys := 0, dev := 0, tag := 0, len := 0, cklo := 0, ckhi := 0,
    resv0 := 0, resv1 := 0, resv2 := 0 }

/-- Frame A of 95_test_vectors.md. -/
def frameA : Frame :=
  { zeroFrame with mark := 0x7E, calcFlag := 1, seq := 1, sys := 1, dev := 2, tag := 0x10, len := 3,
                   cklo := 0x44, ckhi := 0x8C }

def base (p : Profile) : State := { State.constructed (cfg p) 0 with frame := zeroFrame }

def baseAscii : State := { State.constructed cfgAscii 0 with frame := zeroFrame }

/-- Frame A received, its checksum not verified. -/
def withA (p : Profile) : State := { base p with frame := frameA, val := [(0, 0xAA), (1, 0xBB), (2, 0xCC)] }

/-- A ring of four that holds two bytes. -/
def ring2 : State := { base .trailer with rb := [(0, 0x41), (1, 0x42)], tail := 2 }

/-- A full ring of four whose indices have wrapped past 2^32. -/
def ringFull : State :=
  { base .trailer with rb := [(0, 0xA3), (1, 0xA4), (2, 0xA1), (3, 0xA2)], head := 0xFFFFFFFE, tail := 2 }

def onP (s : State) : State := { s with cur := .p }

def at_ (s : State) (q : PState) : State := { s with pstate := q }

/-- The state a command leaves, from where it answers next. -/
def run1 (i : Instr) (s : State) : State :=
  match exec i s with
  | .next t => t
  | .fault _ => s
  | .refused _ => s

/-- The state a step leaves. -/
def step1 (s : State) : State :=
  match step s with
  | .next t => t
  | .fault _ => s
  | .refused _ => s

/-! ### Decoding: one word a constructor, written out from the opcode map -/

theorem test_decode_push : decode [0x10410000] = .ok (.push 0x41) [] := by decide -- V-RB-6
theorem test_decode_pop : decode [0x11000000] = .ok (.pop) [] := by decide -- V-RB-1
theorem test_decode_peek : decode [0x12000000] = .ok (.peek) [] := by decide -- V-RB-6
theorem test_decode_popall : decode [0x14000009] = .ok (.popall 9) [] := by decide -- V-RB-4
theorem test_decode_used : decode [0x15000000] = .ok (.used) [] := by decide -- V-RB-1
theorem test_decode_free : decode [0x16000000] = .ok (.free) [] := by decide -- V-RB-1
theorem test_decode_empty : decode [0x17000000] = .ok (.empty) [] := by decide -- V-RB-1
theorem test_decode_full : decode [0x18000000] = .ok (.full) [] := by decide -- V-RB-1
theorem test_decode_flush : decode [0x19000000] = .ok (.flush) [] := by decide -- V-RB-7
theorem test_decode_crcinit : decode [0x20000000] = .ok (.crcinit) [] := by decide -- V-CRC-10
theorem test_decode_crcseed : decode [0x2100F020] = .ok (.crcseed 0xF020) [] := by decide -- V-CRC-10
theorem test_decode_crcacc : decode [0x220A0000] = .ok (.crcacc 0x0A) [] := by decide -- V-CRC-10
theorem test_decode_crcrd : decode [0x23000000] = .ok (.crcrd) [] := by decide -- V-CRC-10
theorem test_decode_step : decode [0x30670000] = .ok (.step 0x67) [] := by decide -- V-FP-5
theorem test_decode_verify : decode [0x40000000] = .ok (.verify) [] := by decide -- V-FP-1
theorem test_decode_pack : decode [0x41010000] = .ok (.pack 1) [] := by decide -- V-LS-1
theorem test_decode_txb : decode [0x42000101] = .ok (.txb 257) [] := by decide -- V-LS-11
theorem test_decode_clrcnt : decode [0x43000000] = .ok (.clrcnt) [] := by decide -- 30_encoding.md R79
theorem test_decode_decode1 : decode [0x50000000] = .ok (.decode1) [] := by decide -- V-DA-1
theorem test_decode_process : decode [0x51000000] = .ok (.process) [] := by decide -- V-DA-2
theorem test_decode_rdf : decode [0x600C0000] = .ok (.rdf 12) [] := by decide -- V-ENC-13
theorem test_decode_wrf : decode [0x610B00FF] = .ok (.wrf 11 0xFF) [] := by decide -- V-RA-2
theorem test_decode_rdv : decode [0x620000F5] = .ok (.rdv 245) [] := by decide -- V-RA-2
theorem test_decode_wrv : decode [0x63C300F5] = .ok (.wrv 0xC3 245) [] := by decide -- V-RA-2
theorem test_decode_rds : decode [0x640D0000] = .ok (.rds 13) [] := by decide -- V-RA-1

theorem test_decode_pushall : decode [0x13000002, 0x01, 0x02, 0x11000000] = .ok (.pushall [1, 2]) [0x11000000] := by
  decide -- V-ENC-11, V-RB-4

theorem test_decode_crc16 : decode [0x24000001, 0xFFFFFF09] = .ok (.crc16 [9]) [] := by decide -- V-ENC-12, R77

/-- A V-format command is not taken before its payload is there (30_encoding.md R77). -/
theorem test_decode_short : decode [0x13000003, 1, 2] = .short := by decide

theorem test_decode_unassigned : decode [0x1A000000] = .illegal .unknownOpcode [] := by decide -- V-ENC-2

theorem test_decode_mustBeZero : decode [0x11010000] = .illegal .mustBeZero [] := by decide -- V-ENC-4

theorem test_decode_wrf_imm : decode [0x61060100] = .illegal .mustBeZero [] := by decide -- V-ENC-7

/-- The payload of a refused PUSHALL is dropped with it (V-ENC-8). -/
theorem test_decode_payload_dropped : decode [0x13010001, 7, 0x15000000] = .illegal .mustBeZero [0x15000000] := by
  decide

theorem test_encode_wrv : encode (.wrv 0xC3 245) = [0x63C300F5] := by decide -- V-RA-2

theorem test_decodeTableWord : decodeTableWord 32 0x6105005A = some (.wrf 5 0x5A) := by decide -- V-RA-2

/-! ### Ill-formed commands are refused: a payload of 65536 bytes has no encoding (30_encoding.md R77) -/

theorem test_wf_pushall_too_long : Instr.wf (.pushall (List.replicate 65536 0)) = false := by
  rw [← Bool.not_eq_true, Instr.wf_iff, Instr.payload, List.length_replicate]
  decide

theorem test_wf_crc16_too_long : Instr.wf (.crc16 (List.replicate 65536 0)) = false := by
  rw [← Bool.not_eq_true, Instr.wf_iff, Instr.payload, List.length_replicate]
  decide

theorem test_wf_pushall_longest : Instr.wf (.pushall (List.replicate 65535 0)) = true := by
  rw [Instr.wf_iff, Instr.payload, List.length_replicate]

/-! ### One step each -/

/-- A word placed by the host is the next step's command (V-RA-1: `RDS 8` is `RB_CAP`, 16). -/
theorem test_withFetchWord :
    (step1 (State.reset.withFetchWord 32 0x64080000)).portC.out = [{ st := .ok, data := 16 }] := by decide

/-- PUSH is placed on port P. -/
theorem test_withFetchWord_push :
    (step1 (State.reset.withFetchWord 32 0x10410000)).portP.out = [{ st := .ok, data := 0 }] := by decide

/-- V-RB-2: an index that wraps at 2^32 addresses cell 0. -/
theorem test_push_wraps :
    (run1 (.push 0xA3) (onP { ringFull with rb := [(2, 0xA1), (3, 0xA2)], tail := 0 })).rb =
      [(0, 0xA3), (2, 0xA1), (3, 0xA2)] := by decide

theorem test_push_full : (run1 (.push 0x55) (onP ringFull)).portP.out = [{ st := .full, data := 0 }] := by decide

theorem test_pop_oldest : -- V-RB-2
    (run1 .pop ringFull).portC.out = [{ st := .ok, data := 0xA1 }] ∧ (run1 .pop ringFull).head = 0xFFFFFFFF := by
  decide

theorem test_pop_empty : (run1 .pop (base .trailer)).portC.out = [{ st := .none, data := 0 }] := by decide

theorem test_peek_keeps : -- V-RB-6
    (run1 .peek ring2).portC.out = [{ st := .ok, data := 0x41 }] ∧ (run1 .peek ring2).head = 0 := by decide

theorem test_pushall_part : -- V-RB-8
    (run1 (.pushall [5, 6]) (onP ring2)).rb = [(0, 0x41), (1, 0x42), (2, 5)] ∧
      (run1 (.pushall [5, 6]) (onP ring2)).portP.busy = some (.pushall [5, 6] 1) := by decide

theorem test_pushall_full : -- V-RB-4: PUSHALL [07] into a full ring answers 0
    (run1 (.pushall [7]) (onP ringFull)).portP.out = [{ st := .ok, data := 0 }] := by decide

theorem test_popall_part :
    (run1 (.popall 2) ring2).portC.busy = some (.popall 2 [0x41]) ∧ (run1 (.popall 2) ring2).portC.out = [] := by
  decide

theorem test_popall_answer : -- V-RB-4: the count, then the bytes, oldest first
    (run1 (.popall 2)
        { base .trailer with portC := { PortState.idle with busy := some (.popall 2 [1, 2]) } }).portC.out =
      [{ st := .ok, data := 2 }, { st := .ok, data := 1 }, { st := .ok, data := 2 }] := by decide

theorem test_used_wraps : (run1 .used ringFull).portC.out = [{ st := .ok, data := 4 }] := by decide -- V-RB-2

theorem test_free : (run1 .free (onP ring2)).portP.out = [{ st := .ok, data := 2 }] := by decide -- V-RB-5

theorem test_empty : (run1 .empty ring2).portC.out = [{ st := .ok, data := 0 }] := by decide -- V-RB-5

theorem test_full : (run1 .full ringFull).portC.out = [{ st := .ok, data := 1 }] := by decide -- V-RB-1

theorem test_flush : (run1 .flush ring2).tail = 0 ∧ (run1 .flush ring2).rb = ring2.rb := by decide -- V-RB-7

theorem test_flush_wrong_port : -- V-ENC-10
    (run1 .flush (onP ring2)).portP.out = [{ st := .illegal, data := 3 }] := by decide

theorem test_crcinit : (run1 .crcinit { base .trailer with crc := 5 }).crc = 0xFFFF := by decide -- V-CRC-10

theorem test_crcseed : (run1 (.crcseed 0xF020) (base .trailer)).crc = 0xF020 := by decide -- V-CRC-10

theorem test_crcacc : -- V-CRC-10
    (run1 (.crcacc 0x0A) { base .trailer with crc := 0x8419 }).portC.out = [{ st := .ok, data := 0xCDC5 }] := by decide

theorem test_crcrd : (run1 .crcrd (base .trailer)).portC.out = [{ st := .ok, data := 0xFFFF }] := by decide -- V-CRC-10

theorem test_crc16_part : -- V-CRC-1, first running value
    (run1 (.crc16 [1, 3]) (base .trailer)).portC.busy = some (.crc16 [1, 3] 1 0x807E) := by decide

theorem test_crc16_empty : -- V-CRC-11
    (run1 (.crc16 []) (base .trailer)).portC.out = [{ st := .ok, data := 0xFFFF }] := by decide

theorem test_crc16_source_vector : crc16 [0x01, 0x03, 0x00, 0x00, 0x00, 0x0A] = 0xCDC5 := by decide +kernel -- V-CRC-1

theorem test_crc16_published : -- V-CRC-4
    crc16 [0x31, 0x32, 0x33, 0x34, 0x35, 0x36, 0x37, 0x38, 0x39] = 0x4B37 := by decide +kernel

theorem test_step_mark : -- V-FP-2
    (run1 (.step 0x7E) (base .header)).pstate = .awaitChecksumLow := by decide

theorem test_step_last_value : -- V-FP-1, byte CC
    (run1 (.step 0xCC) (at_ { withA .trailer with byteCnt := 2, val := [(0, 0xAA), (1, 0xBB)] } .awaitValue)).pstate =
      .awaitChecksumLow := by decide

theorem test_verify_valid : -- V-FP-1
    (run1 .verify (withA .trailer)).portC.out = [{ st := .valid, data := 0 }] ∧
      (run1 .verify (withA .trailer)).lastSeqRx = 1 := by decide +kernel

theorem test_verify_mutated : -- V-LS-8
    (run1 .verify { withA .trailer with frame := { frameA with len := 2 } }).portC.out =
      [{ st := .error, data := 2 }] := by decide +kernel

theorem test_pack_crc : -- V-LS-5: sequence wrap, wide Calc, checksum 0x16E9
    (run1 (.pack 0x80) { withA .trailer with lastSeqTx := 0xFF }).frame =
      { frameA with calcFlag := 0x80, seq := 0, cklo := 0xE9, ckhi := 0x16 } := by decide +kernel

theorem test_pack_placeholder : -- V-LS-3
    (run1 (.pack 0) { withA .header with lastSeqTx := 1 }).frame =
      { frameA with calcFlag := 0, seq := 2, cklo := 0x10, ckhi := 3 } := by decide +kernel

theorem test_txb_header : -- V-LS-2, byte 2
    (run1 (.txb 2) (withA .header)).portC.out = [{ st := .ok, data := 0x8C }] := by decide

theorem test_txb_trailer : -- V-LS-1, byte 10
    (run1 (.txb 10) (withA .trailer)).portC.out = [{ st := .ok, data := 0x44 }] := by decide

theorem test_clrcnt : -- V-LS-6
    (run1 .clrcnt { base .trailer with validCount := 4, errorCount := 1, lastSeqRx := 3 }).validCount = 0 := by decide

theorem test_decode1_overflow : -- V-DA-4: ERROR, 1 on the first value byte
    (run1 .decode1 (at_ { ring2 with frame := { frameA with len := 5 } } .awaitValue)).portC.out =
      [{ st := .error, data := 1 }] := by decide

theorem test_decode1_valid : -- V-DA-1, the last byte of frame A
    (run1 .decode1 (at_ { withA .trailer with frame := { frameA with ckhi := 0 }, rb := [(0, 0x8C)], tail := 1 }
        .awaitChecksumHigh)).portC.out = [{ st := .valid, data := 0 }] := by decide +kernel

theorem test_process_event : -- V-DA-2, the last byte of frame A
    (run1 .process (at_ { withA .trailer with frame := { frameA with ckhi := 0 }, rb := [(0, 0x8C)], tail := 1 }
        .awaitChecksumHigh)).handled = [{ regs := frameA, value := [0xAA, 0xBB, 0xCC] }] := by decide +kernel

theorem test_process_empty : (run1 .process (base .pkt)).portC.out = [{ st := .ok, data := 0 }] := by decide

theorem test_rdf : (run1 (.rdf 5) (withA .trailer)).portC.out = [{ st := .ok, data := 0x10 }] := by decide -- P2

theorem test_rdf_range : -- V-ENC-13
    (run1 (.rdf 12) (base .trailer)).portC.out = [{ st := .illegal, data := 6 }] := by decide

theorem test_wrf : (run1 (.wrf 5 0x5A) (base .trailer)).frame.tag = 0x5A := by decide -- V-RA-2

theorem test_wrf_len_while_collecting : -- V-RA-4
    (run1 (.wrf 6 1) (at_ (withA .trailer) .awaitValue)).portC.out = [{ st := .illegal, data := 7 }] := by decide

theorem test_rdv : (run1 (.rdv 1) (withA .trailer)).portC.out = [{ st := .ok, data := 0xBB }] := by decide -- P2

theorem test_rdv_range : -- V-ENC-14
    (run1 (.rdv 4) (base .trailer)).portC.out = [{ st := .illegal, data := 6 }] := by decide

theorem test_wrv : (run1 (.wrv 0xC3 3) (base .trailer)).val = [(3, 0xC3)] := by decide -- V-RA-2

theorem test_wrv_range : -- V-ENC-14
    (run1 (.wrv 0xAA 4) (base .trailer)).portC.out = [{ st := .illegal, data := 6 }] := by decide

theorem test_rds : (run1 (.rds 9) (onP State.reset)).portP.out = [{ st := .ok, data := 0xF6 }] := by decide -- V-RA-1

theorem test_rds_range : -- V-ENC-13
    (run1 (.rds 14) (base .trailer)).portC.out = [{ st := .illegal, data := 6 }] := by decide

/-- P5: with a PUSHALL in flight and a POP sent, either may go on first. -/
def p5 (grants : List Port) : State :=
  { ring2 with portP := { PortState.idle with busy := some (.pushall [3, 4, 5] 1) },
               portC := { PortState.idle with inbox := [0x11000000] }, grants := grants }

theorem test_arbiter_p : (step1 (p5 [.p])).tail = 3 ∧ (step1 (p5 [.p])).head = 0 := by decide

theorem test_arbiter_c : (step1 (p5 [.c])).tail = 2 ∧ (step1 (p5 [.c])).head = 1 := by decide

/-! ### Witnesses: for every claim with hypotheses, states and operands that meet them, clause by clause -/

/-- Does a command or a step answer next? -/
def isNext : Result → Bool
  | .next _ => true
  | .fault _ => false
  | .refused _ => false

theorem next_of {r : Result} (h : isNext r = true) : ∃ t, r = .next t := by
  cases r with
  | next t => exact ⟨t, rfl⟩
  | fault f => cases h
  | refused f => cases h

/-- A state that meets the invariant with something in every part: two bytes held across the wrap of the indices, a
value half collected, a PUSHALL and a CRC16 in flight. -/
def busyState : State :=
  { withA .trailer with
    rb := [(0, 0x42), (3, 0x41)], head := 0xFFFFFFFF, tail := 1, pstate := .awaitValue, byteCnt := 2
    portP := { PortState.idle with busy := some (.pushall [9, 8] 1) }
    portC := { PortState.idle with busy := some (.crc16 [1, 3] 1 0x807E) }
    grants := [.p] }

theorem busyState_inv : busyState.Inv where
  used_le := by decide
  live_written := by decide
  rb_wf := by decide
  rb_inside := by decide
  val_wf := by decide
  val_inside := by decide
  pstate_legal := by decide
  collecting := by decide
  not_collecting := by decide
  running_p := by show _ ∧ _; decide
  running_c := by show _ ∧ _ ∧ _; decide

/-- The same with nothing in flight and beats sent on each port. -/
def sent (ps cs : List Beat) : State :=
  { busyState with portP := { PortState.idle with inbox := ps }, portC := { PortState.idle with inbox := cs } }

theorem sent_inv (ps cs : List Beat) : (sent ps cs).Inv :=
  ⟨busyState_inv.used_le, busyState_inv.live_written, busyState_inv.rb_wf, busyState_inv.rb_inside,
    busyState_inv.val_wf, busyState_inv.val_inside, busyState_inv.pstate_legal, busyState_inv.collecting,
    busyState_inv.not_collecting, trivial, trivial⟩

/-- A bulk command in flight on each port. -/
def bothBusy (gs : List Port) : State :=
  { base .trailer with portP := { PortState.idle with busy := some (.pushall [1] 0) },
                       portC := { PortState.idle with busy := some .process }, grants := gs }

def clearPort (s : State) (q : Port) : State := s.setPort q PortState.idle

/-- A ring that holds one byte, `b`, in front of the parser in state `q` with frame `f`. -/
def fed (p : Profile) (f : Frame) (q : PState) (b : Byte) : State :=
  { base p with frame := f, val := [(0, 0xAA), (1, 0xBB), (2, 0xCC)], pstate := q, rb := [(0, b)], tail := 1 }

theorem witness_ConstructionLeavesResetState :
    (∃ c, checkParams { cap := 1, vcap := 255, localSys := 0, localDev := 0, profile := .pkt, lenMode := .ascii } =
      .ok c) ∧
    ∃ c, checkParams { cap := 16, vcap := 1, localSys := 1, localDev := 2, profile := .header, lenMode := .raw } =
      .ok c := ⟨⟨_, rfl⟩, ⟨_, rfl⟩⟩

theorem witness_ConfigurationNeverChanges : ∃ t, step busyState = .next t := next_of (by decide)

theorem witness_EveryStepKeepsTheInvariant :
    (busyState.Inv ∧ ∃ t, step busyState = .next t) ∧
    ((sent [0x10430000] [0x11000000]).Inv ∧ ∃ t, step (sent [0x10430000] [0x11000000]) = .next t) :=
  ⟨⟨busyState_inv, next_of (by decide)⟩, ⟨sent_inv _ _, next_of (by decide)⟩⟩

theorem witness_StepRunsTheDecodedCommand_decoded :
    (sent [0x15000000] []).resetReq = false ∧ (sent [0x15000000] []).orderly = true ∧ (sent [0x15000000] []).portP.busy = none ∧
    decode (sent [0x15000000] []).portP.inbox = .ok .used [] ∧ (sent [0x15000000] []).portC.ready = false ∧
    (sent [] [0x19000000]).resetReq = false ∧ (sent [] [0x19000000]).orderly = true ∧
    (sent [] [0x19000000]).portC.busy = none ∧ decode (sent [] [0x19000000]).portC.inbox = .ok .flush [] ∧
    (sent [] [0x19000000]).portP.ready = false := by decide

theorem witness_StepRunsTheDecodedCommand_decoded_granted :
    (sent [0x15000000] [0x11000000]).resetReq = false ∧ (sent [0x15000000] [0x11000000]).orderly = true ∧
    (sent [0x15000000] [0x11000000]).portP.busy = none ∧
    decode (sent [0x15000000] [0x11000000]).portP.inbox = .ok .used [] ∧
    (sent [0x15000000] [0x11000000]).portC.ready = true ∧ (sent [0x15000000] [0x11000000]).grants = .p :: [] := by
  decide

theorem witness_StepRunsTheDecodedCommand_busy :
    (clearPort (bothBusy []) .c).resetReq = false ∧ (clearPort (bothBusy []) .c).orderly = true ∧
    (bothBusy [.c, .p]).orderly = true ∧
    (clearPort (bothBusy []) .c).portP.busy = some (.pushall [1] 0) ∧
    (clearPort (bothBusy []) .c).portC.ready = false ∧
    (bothBusy [.c, .p]).portC.busy = some .process ∧ (bothBusy [.c, .p]).portP.ready = true ∧
    (bothBusy [.c, .p]).grants = .c :: [.p] := by decide

/-- A FLUSH sent and waiting on port C while a push-path command is in flight or sent on port P. -/
def flushWaits (x : PortState) : State := { sent [] [0x19000000] with portP := x }

theorem witness_SendingTooEarlyFaults :
    ((bothBusy []).resetReq = false ∧ (bothBusy []).portC.busy = some .process) ∧
    ((sent [0x15000000] []).resetReq = false ∧ (sent [0x15000000] []).portP.busy = none ∧
      decode (sent [0x15000000] []).portP.inbox = .ok .used []) ∧
    ((flushWaits PortState.idle).resetReq = false ∧ (flushWaits PortState.idle).portC.busy = none ∧
      decode (flushWaits PortState.idle).portC.inbox = .ok .flush []) ∧
    (flushWaits { PortState.idle with busy := some (.pushall [1] 0) }).portP.inbox = [] ∧
    (flushWaits { PortState.idle with inbox := [0x10050000] }).portP.inbox = [headerOf (.push 5)] ∧
    ((sent [] []).resetReq = false ∧ (sent [] []).idle = true ∧ decode [0x13000001, 7] = .ok (.pushall [7]) []) := by
  decide

/-- R258 with U9: a command sent on port C while PROCESS runs there. -/
theorem test_sent_during_process :
    step ((bothBusy []).send .c [0x11000000]) = .fault .sentTooEarly := rfl

/-- R254: a FLUSH waits while a PUSH is sent. -/
theorem test_flush_waits_behind_push :
    step (flushWaits { PortState.idle with inbox := [0x10050000] }) = .fault .flushNotQuiescent := rfl

/-- R251: a PUSH sent and not taken is in flight. -/
theorem test_reset_with_push_sent :
    step { sent [0x10050000] [] with resetReq := true } = .fault .resetWhileBusy := rfl

/-- Two agents, the second's command sent once the first's has responded: PUSHALL [1, 2] on P, then POPALL 2 on C. -/
theorem test_runProgram :
    (match runProgram 8 [(.p, [0x13000002, 1, 2]), (.c, [0x14000002])] (base .trailer) with
      | some (.next t) => t.portC.out
      | _ => []) =
      [{ st := .ok, data := 2 }, { st := .ok, data := 1 }, { st := .ok, data := 2 }] := by decide

/-- DRAIN of two noise bytes: INCOMPLETE twice, and NONE stops it; two repetitions are too few (30_encoding.md R84). -/
theorem test_drain :
    (match pseudoDrain ring2 with
      | some (.next t) => t.portC.out
      | _ => []) =
      [{ st := .incomplete, data := 0 }, { st := .incomplete, data := 0 }, { st := .none, data := 0 }] ∧
    runDrain 2 2 ring2 = none := by decide

/-- A NONE from before DRAIN does not end it where its DECODE1 has not responded yet. -/
theorem test_runDrain_unanswered :
    runDrain 0 3 { base .trailer with portC := { PortState.idle with out := resp .none 0 } } = none ∧
    runDrain 1 3 { (base .trailer).send .p [0x10050000] with
      grants := [.p], portC := { PortState.idle with out := resp .none 0 } } = none := by decide +kernel

/-- SETFRAME 0x10, [AA, BB, CC] (95_test_vectors.md P2). -/
theorem test_setframe :
    pseudoSetframe 0x10 [0xAA, 0xBB, 0xCC] =
      some [0x61050010, 0x61060003, 0x63AA0000, 0x63BB0001, 0x63CC0002] := by decide

/-- DRAIN on an empty ring while the producer has a PUSH sent, which runs before the first DECODE1: its byte is drained,
and then NONE stops it. -/
theorem test_runDrain :
    (match runDrain 3 4 { (base .trailer).send .p [0x10050000] with grants := [.p] } with
      | some (.next t) => (t.portC.out, t.head, t.tail)
      | _ => ([], 0, 0)) = ([{ st := .incomplete, data := 0 }, { st := .none, data := 0 }], 1, 1) := by decide +kernel

theorem witness_ArbitrationAdmitsBothOrders :
    ((bothBusy [.c]).orderly = true ∧ (bothBusy []).orderly = true ∧ (bothBusy [.c]).resetReq = false ∧ (bothBusy [.c]).portP.ready = true ∧ (bothBusy [.c]).portC.ready = true ∧
      (bothBusy [.c]).grants = .c :: []) ∧
    ((bothBusy []).portP.ready = true ∧ (bothBusy []).portC.ready = true ∧ (bothBusy []).grants = []) ∧
    ((sent [] []).resetReq = false ∧ (sent [] []).portP.ready = false ∧ (sent [] []).portC.ready = false) := by
  decide

theorem witness_ResetAppliedAgainReconstructs :
    (State.resetReq { ring2 with resetReq := true } = true ∧ ∀ q, (ring2.port q).busy = none ∧
      (ring2.port q).inbox = []) ∧
    (State.resetReq { bothBusy [] with resetReq := true } = true ∧ ((bothBusy []).port .p).busy ≠ none) ∧
    ((sent [0x10050000] []).port .p).inbox ≠ [] ∧ ((sent [] [0x13000001]).port .c).inbox ≠ [] :=
  ⟨⟨rfl, fun q => by cases q <;> decide⟩, by decide, by decide, by decide⟩

theorem witness_DecodeInvertsEncode :
    Instr.wf (.pushall (List.replicate 65535 0)) = true ∧ Instr.wf (.crc16 []) = true ∧ Instr.wf (.wrf 255 255) = true :=
  ⟨test_wf_pushall_longest, rfl, rfl⟩

theorem witness_EncodeInvertsDecode :
    decode [0x13000002, 0xFFFFFF07, 8, 0x11000000] = .ok (.pushall [7, 8]) [0x11000000] ∧
    decode [0x24000000] = .ok (.crc16 []) [] ∧ decode [0x61FF00FF] = .ok (.wrf 0xFF 0xFF) [] := by decide

theorem witness_UndecodableBeatIsAnsweredIllegal :
    ((sent [0x13010001, 7, 0x15000000] []).resetReq = false ∧ (sent [0x13010001, 7, 0x15000000] []).portP.busy = none ∧
      (sent [0x13010001, 7, 0x15000000] []).portC.ready = false ∧
      decode [0x13010001, 7, 0x15000000] = .illegal .mustBeZero [0x15000000]) ∧
    ((sent [] [0x00000000]).resetReq = false ∧ (sent [] [0x00000000]).portC.busy = none ∧
      (sent [] [0x00000000]).portP.ready = false ∧ decode [0x00000000] = .illegal .unknownOpcode []) ∧
    decode [0x13010001, 7] = .illegal .mustBeZero [] := by decide

theorem witness_PortLegalityIsEnforced :
    legalOn (onP ring2).cur .pop = false ∧ legalOn ring2.cur (.push 1) = false ∧
    (legalOn ring2.cur .pop = true ∧ ∃ t, exec .pop ring2 = .next t) ∧
    (legalOn (onP ring2).cur (.push 1) = true ∧ ∃ t, exec (.push 1) (onP ring2) = .next t) :=
  ⟨by decide, by decide, ⟨by decide, _, rfl⟩, ⟨by decide, _, rfl⟩⟩

theorem witness_IllegalAnswersChangeNothing :
    (∃ t, exec (.rdf 12) ring2 = .next t ∧ Answers ring2 t (resp .illegal 6)) ∧
    ∃ t, exec .decode1 (onP ring2) = .next t ∧ Answers (onP ring2) t (resp .illegal 3) :=
  ⟨⟨_, rfl, by decide, by decide⟩, _, rfl, by decide, by decide⟩

theorem witness_PushAppendsOrReportsFull :
    ((onP ringFull).cur = .p ∧ (onP ringFull).tail - (onP ringFull).head = (onP ringFull).cfg.capWord) ∧
    ((onP ring2).cur = .p ∧ (3 : Word) - (onP ring2).head ≠ (onP ring2).cfg.capWord) := by decide

theorem witness_PopRemovesTheOldestByte :
    ((base .trailer).cur = .c ∧ (base .trailer).head = (base .trailer).tail) ∧
    (ringFull.cur = .c ∧ ringFull.head ≠ ringFull.tail) := by decide

theorem witness_PeekIsNonDestructive :
    ((base .trailer).cur = .c ∧ (base .trailer).head = (base .trailer).tail) ∧
    (ring2.cur = .c ∧ ring2.head ≠ ring2.tail) := by decide

/-- A PUSHALL in flight on port P, which is the current one. -/
def pushing (s : State) (ps : List Byte) (n : Nat) : State :=
  { s with cur := .p, portP := { PortState.idle with busy := some (.pushall ps n) } }

theorem witness_PushallPushesOneByteAPart :
    ((pushing ring2 [7, 8] 1).cur = .p ∧
      (pushing ring2 [7, 8] 1).tail - (pushing ring2 [7, 8] 1).head ≠ (pushing ring2 [7, 8] 1).cfg.capWord ∧
      ([7, 8] : List Byte)[(pushing ring2 [7, 8] 1).pushallPosition]? = some 8) ∧
    (onP ringFull).tail - (onP ringFull).head = (onP ringFull).cfg.capWord ∧
    ([7, 8] : List Byte).length ≤ (pushing ring2 [7, 8] 2).pushallPosition ∧
    ([] : List Byte).length ≤ (onP ring2).pushallPosition := by decide

theorem witness_PushallAlonePushesWhatFits :
    (sent [0x13000003, 7, 8, 9] []).Inv ∧ (sent [0x13000003, 7, 8, 9] []).resetReq = false ∧
    (sent [0x13000003, 7, 8, 9] []).portC.ready = false ∧ (sent [0x13000003, 7, 8, 9] []).portP.busy = none ∧
    decode (sent [0x13000003, 7, 8, 9] []).portP.inbox = .ok (.pushall [7, 8, 9]) [] ∧
    decode (sent [0x13000000] []).portP.inbox = .ok (.pushall []) [] :=
  ⟨sent_inv _ _, by decide, by decide, by decide, by decide, by decide⟩

/-- A POPALL in flight on port C. -/
def popping (m : Half) (out : List Byte) : State :=
  { ring2 with portC := { PortState.idle with busy := some (.popall m out) } }

theorem witness_PopallPopsOneByteAPart :
    ((popping 2 [5]).cur = .c ∧ (popping 2 [5]).head ≠ (popping 2 [5]).tail ∧
      (popping 2 [5]).popallOut.length < (2 : Half).toNat) ∧
    (2 : Half).toNat ≤ (popping 2 [5, 6]).popallOut.length ∧ (0 : Half).toNat ≤ ring2.popallOut.length ∧
    ((base .trailer).cur = .c ∧ (base .trailer).head = (base .trailer).tail) := by decide

theorem witness_PopallAloneReturnsTheOldestBytes :
    (sent [] [0x14000009]).Inv ∧ (sent [] [0x14000009]).resetReq = false ∧
    (sent [] [0x14000009]).portP.ready = false ∧ (sent [] [0x14000009]).portC.busy = none ∧
    decode (sent [] [0x14000009]).portC.inbox = .ok (.popall 9) [] ∧
    decode (sent [] [0x14000000]).portC.inbox = .ok (.popall 0) [] :=
  ⟨sent_inv _ _, by decide, by decide, by decide, by decide, by decide⟩

theorem witness_FlushEmptiesTheRingOrFaults :
    (ring2.cur = .c ∧ ring2.producerQuiet = true) ∧ ((bothBusy []).cur = .c ∧ (bothBusy []).producerQuiet = false) ∧
    (ring2.portP.busy = none ∧ ring2.portP.inbox = []) ∧
    ((sent [0x15000000, 0x64080000] []).portP.busy = none ∧
      (sent [0x15000000, 0x64080000] []).portP.inbox = [headerOf .used, headerOf (.rds 8)]) ∧
    (bothBusy []).portP.busy = some (.pushall [1] 0) ∧
    (sent [0x10050000] []).portP.inbox = headerOf (.push 5) :: [] ∧
    (sent [0x13000001, 5] []).portP.inbox = headerOf (.pushall [5]) :: [5] ∧
    (sent [0x18000000, 0x10050000] []).portP.inbox = headerOf .full :: headerOf (.push 5) :: [] ∧
    ((Instr.crc16 [0x10]).wf = true ∧
      (sent [0x24000001, 0x10, 0x10050000] []).portP.inbox = encode (.crc16 [0x10]) ++ headerOf (.push 5) :: []) := by
  decide

theorem witness_EveryStepTreatsTheRingAsAQueue :
    busyState.Inv ∧ busyState.resetReq = false ∧ ∃ t, step busyState = .next t :=
  ⟨busyState_inv, rfl, next_of (by decide)⟩

theorem witness_FillAndDrain :
    State.cur (onP (base .header)) = .p ∧ (onP (base .header)).head = (onP (base .header)).tail ∧
    ([1, 2, 3, 4] : List Byte).length = (onP (base .header)).cfg.cap := by decide

theorem witness_EachPortWritesOnlyItsOwnState :
    ((onP ring2).cur = .p ∧ ∃ t, exec (.push 1) (onP ring2) = .next t) ∧
    (ring2.cur = .c ∧ Instr.pop ≠ .flush ∧ ∃ t, exec .pop ring2 = .next t) :=
  ⟨⟨rfl, _, rfl⟩, rfl, nofun, _, rfl⟩

theorem witness_CrcRegisterLoadsFoldsAndReads : ring2.cur = .c := rfl

/-- A CRC16 in flight on port C. -/
def summing (n : Nat) : State :=
  { base .trailer with portC := { PortState.idle with busy := some (.crc16 [1, 3] n 0x807E) } }

theorem witness_CrcSixteenFoldsOneByteAPart :
    ((summing 1).cur = .c ∧ ([1, 3] : List Byte)[(summing 1).crc16Position.1]? = some 3) ∧
    ([1, 3] : List Byte).length ≤ (summing 2).crc16Position.1 ∧
    ([] : List Byte).length ≤ (base .trailer).crc16Position.1 := by decide

theorem witness_CrcSixteenAloneAnswersTheChecksum :
    (sent [] [0x24000002, 1, 3]).resetReq = false ∧ (sent [] [0x24000002, 1, 3]).portP.ready = false ∧
    (sent [] [0x24000002, 1, 3]).portC.busy = none ∧
    decode (sent [] [0x24000002, 1, 3]).portC.inbox = .ok (.crc16 [1, 3]) [] := by decide

theorem witness_AccumIsIncremental : (base .pkt).cur = .c := rfl

theorem witness_CrcAccumulatorIsPrivate :
    (∃ t, exec .verify (withA .trailer) = .next t) ∧ Instr.verify ≠ .crcinit ∧ (∀ x, Instr.verify ≠ .crcseed x) ∧
    (∀ b, Instr.verify ≠ .crcacc b) ∧ Instr.verify ≠ .crcrd := ⟨⟨_, rfl⟩, nofun, nofun, nofun, nofun⟩

theorem witness_StepReportsTheParserResult : (withA .header).cur = .c := rfl

theorem witness_OnlyTheMarkStartsAFrame :
    (base .pkt).cur = .c ∧ (base .pkt).pstate = .awaitMark ∧ (0x7D : Byte) ≠ 0x7E ∧ (0x7F : Byte) ≠ 0x7E := by decide

theorem witness_FixedFieldsAreRecorded :
    ∀ x ∈ [(PState.awaitCalc, FReg.calcFlag, PState.awaitSeq), (.awaitSeq, .seq, .awaitSys),
      (.awaitSys, .sys, .awaitDev), (.awaitDev, .dev, .awaitTag), (.awaitTag, .tag, .awaitLen),
      (.awaitChecksumLow, .cklo, .awaitChecksumHigh), (.awaitResv0, .resv0, .awaitResv1),
      (.awaitResv1, .resv1, .awaitResv2), (.awaitResv2, .resv2, .awaitSeq)],
      ∃ s : State, s.cur = .c ∧ s.pstate = x.1 ∧ pstateOf s.cfg.profile x.1 = true := by
  intro x hx
  have : pstateOf .trailer x.1 = true ∨ pstateOf .pkt x.1 = true := by revert x; decide
  exact this.elim (fun h => ⟨at_ (base .trailer) x.1, rfl, rfl, h⟩) (fun h => ⟨at_ (base .pkt) x.1, rfl, rfl, h⟩)

theorem witness_ChecksumHighCompletesTrailerFrames :
    (at_ (base .trailer) .awaitChecksumHigh).cur = .c ∧
    (at_ (base .trailer) .awaitChecksumHigh).cfg.profile ≠ .pkt ∧
    (at_ (base .header) .awaitChecksumHigh).cfg.profile = .header := by decide

theorem witness_RawLengthIsRecorded :
    (at_ (base .trailer) .awaitLen).cur = .c ∧ (at_ (base .trailer) .awaitLen).pstate = .awaitLen ∧
    (at_ (base .trailer) .awaitLen).cfg.lenMode = .raw ∧ (at_ (base .trailer) .awaitLen).cfg.profile = .trailer ∧
    (at_ (base .pkt) .awaitLen).cfg.lenMode = .raw ∧ (at_ (base .pkt) .awaitLen).cfg.profile ≠ .trailer ∧
    (1 : Byte) ≠ 0 := by decide

theorem witness_AsciiLengthIsConvertedOrFails :
    (at_ baseAscii .awaitLen).cur = .c ∧ (at_ baseAscii .awaitLen).pstate = .awaitLen ∧
    (at_ baseAscii .awaitLen).cfg.lenMode = .ascii ∧
    [0x2F, 0x3A, 0x40, 0x47, 0x60, 0x67].map hexval = List.replicate 6 none ∧
    [0x30, 0x39, 0x41, 0x46, 0x61, 0x66].map hexval = [some 0, some 9, some 10, some 15, some 10, some 15] := by
  decide

/-- A value of length `len` being collected, at byte `n`. -/
def collecting (p : Profile) (len n : Byte) : State :=
  { base p with frame := { frameA with len := len }, pstate := .awaitValue, byteCnt := n }

theorem witness_ValueByteIsStored :
    (collecting .trailer 4 0).cur = .c ∧ (collecting .trailer 4 0).pstate = .awaitValue ∧
    (collecting .trailer 4 0).frame.len.toNat ≤ (collecting .trailer 4 0).cfg.vcap ∧
    (collecting .trailer 4 0).byteCnt + 1 ≠ (collecting .trailer 4 0).frame.len ∧
    (collecting .trailer 4 3).byteCnt + 1 = (collecting .trailer 4 3).frame.len ∧
    (collecting .trailer 4 3).cfg.profile = .trailer ∧ (collecting .pkt 4 3).cfg.profile ≠ .trailer := by decide

theorem witness_OverlongFrameIsRejected :
    (collecting .header 5 0).cur = .c ∧ (collecting .header 5 0).pstate = .awaitValue ∧
    (collecting .header 5 0).cfg.vcap < (collecting .header 5 0).frame.len.toNat := by decide

theorem witness_NoCommandWritesPastTheValueBuffer :
    busyState.Inv ∧ (∃ t, exec (.step 1) busyState = .next t) ∧ busyState.cfg.vcap ≤ 4 :=
  ⟨busyState_inv, ⟨_, rfl⟩, by decide⟩

theorem witness_CompletedHeaderAndPktFramesFit :
    (collecting .header 4 3).cfg.profile ≠ .trailer ∧ ((collecting .header 4 3).parse 1).2 = .complete ∧
    (at_ (base .pkt) .awaitLen).cfg.profile ≠ .trailer ∧ ((at_ (base .pkt) .awaitLen).parse 0).2 = .complete := by
  decide

theorem witness_PktFrameCompletesOnItsLastByte :
    (base .pkt).cur = .c ∧ (base .pkt).cfg.profile = .pkt ∧ (base .pkt).cfg.lenMode = .raw ∧
    (base .pkt).pstate = .awaitMark ∧ ([1, 2, 3, 4] : List Byte).length ≤ (base .pkt).cfg.vcap ∧
    ([] : List Byte).length ≤ (base .pkt).cfg.vcap := by decide

def withLen (p : Profile) (n : Byte) : State := { withA p with frame := { frameA with len := n } }

theorem witness_VerifyCountsMatchOrMismatch :
    (withLen .trailer 5).cur = .c ∧
    ((withLen .trailer 5).cfg.profile ≠ .pkt ∧ (withLen .trailer 5).cfg.vcap < (withLen .trailer 5).frame.len.toNat) ∧
    (withLen .pkt 5).cfg.profile = .pkt ∧
    ((withA .trailer).frame.len.toNat ≤ (withA .trailer).cfg.vcap ∧ (withA .trailer).frame.calcFlag ≠ 0 ∧
      crc16 ([0x01, 0x01, 0x01, 0x02, 0x10, 0x03] ++ (withA .trailer).valueBytes 3) =
        (withA .trailer).frame.ckhi ++ (withA .trailer).frame.cklo) ∧
    ((withLen .header 0).cfg.profile ≠ .pkt ∧
      crc16 ([0x01, 0x01, 0x01, 0x02, 0x10, 0x00] ++ (withLen .header 0).valueBytes 0) ≠
        (withLen .header 0).frame.ckhi ++ (withLen .header 0).frame.cklo) := by
  decide +kernel

theorem witness_PackFillsTheFrame :
    (withA .pkt).cur = .c ∧ (withA .pkt).cfg.profile = .pkt ∧
    ((withLen .trailer 5).cfg.profile ≠ .pkt ∧ (withLen .trailer 5).cfg.vcap < (withLen .trailer 5).frame.len.toNat) ∧
    ((withLen .header 4).cfg.profile ≠ .pkt ∧
      (withLen .header 4).frame.len.toNat ≤ (withLen .header 4).cfg.vcap) := by decide

theorem witness_TxbReadsTheWireImage :
    (withA .pkt).cur = .c ∧ (withA .pkt).cfg.profile = .pkt ∧
    ((withLen .trailer 5).cfg.profile ≠ .pkt ∧ (withLen .trailer 5).cfg.vcap < (withLen .trailer 5).frame.len.toNat) ∧
    ((withA .trailer).frame.len.toNat ≤ (withA .trailer).cfg.vcap ∧
      9 + (withA .trailer).frame.len.toNat ≤ (12 : Half).toNat) ∧
    ((withA .trailer).cfg.profile = .trailer ∧
      ([0x7E, 0x01, 0x01, 0x01, 0x02, 0x10, 0x03] ++ (withA .trailer).valueBytes 3 ++ [0x44, 0x8C])[(11 : Half).toNat]? =
        some 0x8C) ∧
    ((withA .header).cfg.profile = .header ∧
      ([0x7E, 0x44, 0x8C, 0x01, 0x01, 0x01, 0x02, 0x10, 0x03] ++ (withA .header).valueBytes 3)[(11 : Half).toNat]? =
        some 0xCC) := by decide

theorem witness_ClrcntClearsTheFourCounters : (withA .pkt).cur = .c := rfl

theorem witness_PackedFrameRoundTrips :
    (withA .header).cur = .c ∧ (withA .header).cfg.profile ≠ .pkt ∧
    (withA .header).frame.len.toNat ≤ (withA .header).cfg.vcap ∧ (∃ t, exec (.pack 1) (withA .header) = .next t) ∧
    (base .header).cur = .c ∧ (base .header).cfg.profile = (withA .header).cfg.profile ∧
    (base .header).pstate = .awaitMark ∧ (withA .header).frame.len.toNat ≤ (base .header).cfg.vcap :=
  ⟨by decide, by decide, by decide, ⟨_, rfl⟩, by decide, by decide, by decide, by decide⟩

theorem witness_SessionCountersMoveOnlyAsListed :
    (∃ t, exec .verify (withA .trailer) = .next t) ∧ Instr.verify ≠ .clrcnt ∧ (∀ f, Instr.verify ≠ .pack f) ∧
    (Instr.pop ≠ .verify ∧ Instr.pop ≠ .decode1 ∧ Instr.pop ≠ .process) :=
  ⟨⟨_, rfl⟩, nofun, nofun, nofun, nofun, nofun⟩

theorem witness_DecodeOnePopsParsesAndVerifies :
    ((base .trailer).cur = .c ∧ (base .trailer).head = (base .trailer).tail) ∧
    ((fed .trailer zeroFrame .awaitMark 0).head ≠ (fed .trailer zeroFrame .awaitMark 0).tail ∧
      ((fed .trailer zeroFrame .awaitMark 0).parse 0).2 = .incomplete) ∧
    ((fed .trailer { zeroFrame with len := 5 } .awaitValue 1).parse 1).2 = .error .frameOverflow ∧
    (State.parse { baseAscii with pstate := .awaitLen, rb := [(0, 0x67)], tail := 1 } 0x67).2 =
      .error .invalidAsciiDigit ∧
    ((fed .trailer frameA .awaitChecksumHigh 0x8C).parse 0x8C).2 = .complete ∧
    ((fed .trailer frameA .awaitChecksumHigh 0x8C).parse 0x8C).1.verifyCompleted.2 = .valid ∧
    ((fed .trailer frameA .awaitChecksumHigh 0).parse 0).2 = .complete ∧
    ((fed .trailer frameA .awaitChecksumHigh 0).parse 0).1.verifyCompleted.2 = .mismatch ∧
    ((fed .trailer { frameA with len := 5 } .awaitChecksumHigh 0x8C).parse 0x8C).1.cfg.profile ≠ .pkt ∧
    ((fed .trailer { frameA with len := 5 } .awaitChecksumHigh 0x8C).parse 0x8C).1.cfg.vcap <
      ((fed .trailer { frameA with len := 5 } .awaitChecksumHigh 0x8C).parse 0x8C).1.frame.len.toNat := by
  decide +kernel

theorem witness_ProcessHandsValidFramesToTheHandler :
    ((base .trailer).cur = .c ∧ (base .trailer).head = (base .trailer).tail) ∧
    ((fed .pkt zeroFrame .awaitLen 1).head ≠ (fed .pkt zeroFrame .awaitLen 1).tail ∧
      ((fed .pkt zeroFrame .awaitLen 1).parse 1).2 ≠ .complete) ∧
    ((fed .trailer frameA .awaitChecksumHigh 0).parse 0).2 = .complete ∧
    ((fed .trailer frameA .awaitChecksumHigh 0).parse 0).1.verifyCompleted.2 = .mismatch ∧
    ((fed .pkt zeroFrame .awaitLen 0).parse 0).2 = .complete ∧
    ((fed .pkt zeroFrame .awaitLen 0).parse 0).1.verifyCompleted.2 = .valid ∧
    ((fed .trailer { frameA with len := 5 } .awaitChecksumHigh 0x8C).parse 0x8C).1.cfg.profile ≠ .pkt ∧
    ((fed .trailer { frameA with len := 5 } .awaitChecksumHigh 0x8C).parse 0x8C).1.cfg.vcap <
      ((fed .trailer { frameA with len := 5 } .awaitChecksumHigh 0x8C).parse 0x8C).1.frame.len.toNat := by
  decide +kernel

/-- A TRAILER frame about to complete whose `F.LEN` a WRF has set above `VCAP`. -/
def aboveCapacity : State := fed .trailer { frameA with len := 5 } .awaitChecksumHigh 0x8C

/-- The same with `F.CALC = 0`, and the placeholder of the new length on the wire (43_link_session.md R171): the length
is checked first (10_state.md R28). -/
theorem test_decode1_above_capacity :
    (run1 .decode1 (fed .trailer { frameA with calcFlag := 0, len := 5, cklo := 0x10 } .awaitChecksumHigh 5)).portC.out =
      [{ st := .error, data := 2 }] := by decide

theorem witness_CompletedFrameAboveCapacityIsRejected :
    aboveCapacity.cur = .c ∧ aboveCapacity.head ≠ aboveCapacity.tail ∧ aboveCapacity.cfg.profile = .trailer ∧
    (aboveCapacity.advanceHead.parse (aboveCapacity.rbRead (aboveCapacity.phys aboveCapacity.head))).2 = .complete ∧
    aboveCapacity.cfg.vcap <
      (aboveCapacity.advanceHead.parse
        (aboveCapacity.rbRead (aboveCapacity.phys aboveCapacity.head))).1.frame.len.toNat := by decide

theorem witness_OnlyProcessEmitsEvents : ∃ t, exec .process (fed .pkt zeroFrame .awaitLen 0) = .next t := ⟨_, rfl⟩

theorem witness_ProcessEqualsDrain :
    (sent [] []).Inv ∧ (sent [] []).cur = .c ∧ (sent [] []).portC.busy = none :=
  ⟨sent_inv _ _, by decide, by decide⟩

theorem witness_FrameRegistersReadAndWrite :
    (0x0100 : Half).extractLsb' 8 8 ≠ 0 ∧ (base .pkt).cur = .c ∧ 11 < (12 : Byte).toNat ∧ (collecting .pkt 2 0).pstate = .awaitValue ∧
    ¬ ((6 : Byte) = 6 ∧ (base .pkt).pstate = .awaitValue) ∧
    [FReg.mark, .calcFlag, .seq, .sys, .dev, .tag, .len, .cklo, .ckhi, .resv0, .resv1, .resv2][(0 : Byte).toNat]? =
      some .mark ∧
    [FReg.mark, .calcFlag, .seq, .sys, .dev, .tag, .len, .cklo, .ckhi, .resv0, .resv1, .resv2][(11 : Byte).toNat]? =
      some .resv2 := by decide

theorem witness_ValueBufferReadsAndWrites :
    (base .pkt).cur = .c ∧ (base .pkt).cfg.vcap ≤ (4 : Half).toNat ∧ (3 : Half).toNat < (base .pkt).cfg.vcap := by
  decide

theorem witness_SessionRegistersAreReadable :
    13 < (14 : Byte).toNat ∧ sregOf 0 = some .localSys ∧ sregOf 13 = some .rbTail ∧ ring2.sget .rbTail = 2 := by decide

end Sys2Proof.Tests
end

section
/-! PROOFS. 00_scope.md R7 and R9: the configuration never changes, and an instance exists exactly for legal
parameters. -/

namespace Sys2Proof.Machine

/-! ### The configuration never changes (00_scope.md R7) -/

/-- However a command ends, the configuration is the one it began with. -/
theorem Effect.cfg {i : Instr} {s t : State} (e : Effect i s t) : t.cfg = s.cfg := by
  cases e with
  | answer u rs h => exact (u.respondAll_cfg rs).trans h.fixed.cfg
  | finish u rs h => exact ((u.setRunning none).respondAll_cfg rs).trans ((u.setRunning_cfg none).trans h.fixed.cfg)
  | goOn u r h _ => exact (u.setRunning_cfg (some r)).trans h.fixed.cfg

theorem exec_cfg {i : Instr} {s t : State} (h : exec i s = .next t) : t.cfg = s.cfg := (exec_effect h).cfg

@[simp] theorem State.setInbox_cfg (s : State) (bs : List Beat) : (s.setInbox bs).cfg = s.cfg := rfl

@[simp] theorem State.rebuild_cfg (s : State) : s.rebuild.cfg = s.cfg := rfl

theorem State.arbitrate_cfg {s t : State} (h : s.arbitrate = some t) : t.cfg = s.cfg := by
  obtain ⟨q, gs, n, rfl, -⟩ := State.arbitrate_cases h
  rfl

theorem State.runCurrent_cfg {s t : State} (h : s.runCurrent = .next t) : t.cfg = s.cfg := by
  rcases State.runCurrent_cases h with ⟨r, -, he⟩ | ⟨-, -, rfl⟩ | ⟨i, rest, -, -, he⟩ | ⟨e, rest, -, -, rfl⟩
  · exact exec_cfg he
  · rfl
  · exact (exec_cfg he).trans (s.setInbox_cfg rest)
  · exact ((s.setInbox rest).illegal_cfg _).trans (s.setInbox_cfg rest)

theorem State.advance_cfg {s t : State} (h : s.advance = .next t) : t.cfg = s.cfg := by
  rcases step_cases h with ⟨-, -, rfl⟩ | ⟨-, -, -, rfl⟩ | ⟨-, -, u, hu, hr⟩
  · exact s.rebuild_cfg
  · rfl
  · exact (State.runCurrent_cfg hr).trans (State.arbitrate_cfg hu)

/-- Settles O3: construction again, arbitration and every atomic part keep the configuration. -/
theorem configurationNeverChanges : Obligations.ConfigurationNeverChanges := by
  unfold Obligations.ConfigurationNeverChanges
  exact fun _ _ h => State.advance_cfg h

end Sys2Proof.Machine

/-! ### An instance exists exactly for legal parameters (00_scope.md R9) -/

namespace Sys2Proof

open Machine

/-- The constraints of 00_scope.md R8 and R9. -/
def Params.Legal (q : Params) : Prop :=
  (∃ k, k ≤ 31 ∧ q.cap = 2 ^ k) ∧ 1 ≤ q.vcap ∧ q.vcap ≤ 255 ∧ (q.lenMode = .ascii → q.profile = .pkt)

/-- The evidence a configuration carries is that of its parameters. -/
theorem Cfg.params_legal (c : Cfg) : c.params.Legal := ⟨⟨c.k, c.k_le, rfl⟩, c.vcap_pos, c.vcap_le, c.ascii_pkt⟩

/-- What the check accepts becomes the configuration of those very parameters. -/
theorem params_of_checkParams {q : Params} {c : Cfg} (h : checkParams q = .ok c) : c.params = q := by
  unfold checkParams at h
  split at h
  · rename_i hk
    split at h
    · split at h
      · cases h
        simp [Cfg.params, Cfg.cap, ← hk.1]
      · cases h
    · cases h
  · cases h

theorem checkParams_of_legal {q : Params} (h : q.Legal) : ∃ c, checkParams q = .ok c := by
  obtain ⟨⟨k, hk, hcap⟩, hpos, hle, hascii⟩ := h
  have hlog : Nat.log2 q.cap = k := by rw [hcap, Nat.log2_two_pow]
  have hring : q.cap = 2 ^ Nat.log2 q.cap ∧ Nat.log2 q.cap ≤ 31 := by rw [hlog]; exact ⟨hcap, hk⟩
  unfold checkParams
  rw [dif_pos hring, dif_pos ⟨hpos, hle⟩, dif_pos hascii]
  exact ⟨_, rfl⟩

theorem checkParams_ok_iff (q : Params) : (∃ c, checkParams q = .ok c) ↔ q.Legal :=
  ⟨fun ⟨c, h⟩ => params_of_checkParams h ▸ c.params_legal, checkParams_of_legal⟩

/-- An instance exists exactly where the check accepts the parameters. -/
theorem construct_ok_iff (q : Params) : (∃ s, construct q = .ok s) ↔ ∃ c, checkParams q = .ok c := by
  unfold construct
  cases checkParams q <;> simp

/-- Settles O2: the check accepts exactly the legal parameters. -/
theorem constructionSucceedsExactlyWhenLegal : Obligations.ConstructionSucceedsExactlyWhenLegal := by
  unfold Obligations.ConstructionSucceedsExactlyWhenLegal
  exact fun q => (construct_ok_iff q).trans (checkParams_ok_iff q)

end Sys2Proof
end

section
/-! PROOFS. The machine invariant (10_state.md R21, R23, R27, R31, R32), taken apart into what it says of the ring, of the
collection of a value and of the bulk commands: construction establishes each part and every command keeps it. -/

namespace Sys2Proof.Machine

/-! ### The parts of the invariant -/

/-- What the invariant says of the ring (10_state.md R21, R23). -/
structure RingOk (s : State) : Prop where
  used_le : s.usedCount.toNat ≤ s.cfg.cap
  live_written : ∀ i, i < s.usedCount.toNat → (s.rb.get (s.phys (s.head + BitVec.ofNat 32 i))).isSome = true
  rb_wf : s.rb.wf
  rb_inside : ∀ x ∈ s.rb, x.1 < s.cfg.cap

/-- What the invariant says of the value buffer and the parser (10_state.md R27, R31, R32). -/
structure CollectionOk (s : State) : Prop where
  val_wf : s.val.wf
  val_inside : ∀ x ∈ s.val, x.1 < s.cfg.vcap
  pstate_legal : pstateOf s.cfg.profile s.pstate = true
  collecting : s.pstate = .awaitValue → s.byteCnt.toNat < s.frame.len.toNat
  not_collecting : s.pstate ≠ .awaitValue → s.byteCnt = 0

/-- What the invariant says of the bulk commands in execution (20_memory.md R58). -/
def BulkOk (s : State) : Prop := ∀ q, runLegal q (s.port q).busy

theorem State.Inv.ring {s : State} (h : s.Inv) : RingOk s := ⟨h.used_le, h.live_written, h.rb_wf, h.rb_inside⟩

theorem State.Inv.collection {s : State} (h : s.Inv) : CollectionOk s :=
  ⟨h.val_wf, h.val_inside, h.pstate_legal, h.collecting, h.not_collecting⟩

theorem State.Inv.bulk {s : State} (h : s.Inv) : BulkOk s := fun q => by cases q; exacts [h.running_p, h.running_c]

theorem State.Inv.of_parts {s : State} (hr : RingOk s) (hc : CollectionOk s) (hb : BulkOk s) : s.Inv :=
  ⟨hr.used_le, hr.live_written, hr.rb_wf, hr.rb_inside, hc.val_wf, hc.val_inside, hc.pstate_legal, hc.collecting,
    hc.not_collecting, hb .p, hb .c⟩

/-- What `CollectionOk` speaks of is that of `s`. -/
structure SameCollection (s t : State) : Prop where
  cfg : t.cfg = s.cfg
  val : t.val = s.val
  len : t.frame.len = s.frame.len
  pstate : t.pstate = s.pstate
  byteCnt : t.byteCnt = s.byteCnt

theorem SameCollection.refl (s : State) : SameCollection s s := ⟨rfl, rfl, rfl, rfl, rfl⟩

theorem SameCollection.trans {s t u : State} (h : SameCollection s t) (k : SameCollection t u) : SameCollection s u :=
  ⟨k.cfg.trans h.cfg, k.val.trans h.val, k.len.trans h.len, k.pstate.trans h.pstate, k.byteCnt.trans h.byteCnt⟩

/-- The block's own state, as far as the invariant and the ring's contents speak of it, is that of `s`; the answers given,
the beats sent and the arbitration may differ. -/
structure SameBlock (s t : State) : Prop where
  cells : SameCells s t
  collection : SameCollection s t
  busy : SameBusy s t
  epoch : t.epoch = s.epoch

theorem SameBlock.refl (s : State) : SameBlock s s := ⟨⟨rfl, rfl, rfl⟩, .refl s, fun _ => rfl, rfl⟩

theorem SameBlock.trans {s t u : State} (h : SameBlock s t) (k : SameBlock t u) : SameBlock s u :=
  ⟨h.cells.trans k.cells, h.collection.trans k.collection, h.busy.trans k.busy, k.epoch.trans h.epoch⟩

theorem RingOk.congr {s t : State} (h : RingOk s) (hc : t.cfg = s.cfg) (hs : SameCells s t) : RingOk t := by
  obtain ⟨hb, hh, ht⟩ := hs
  have hu : t.usedCount = s.usedCount := by rw [State.usedCount, State.usedCount, hh, ht]
  refine ⟨?_, fun i hi => ?_, ?_, ?_⟩
  · rw [hu, hc]; exact h.used_le
  · rw [hb, hh, State.phys_congr hc]; exact h.live_written i (hu ▸ hi)
  · rw [hb]; exact h.rb_wf
  · rw [hb, hc]; exact h.rb_inside

theorem CollectionOk.congr {s t : State} (h : CollectionOk s) (hs : SameCollection s t) : CollectionOk t := by
  obtain ⟨hc, hv, hl, hp, hn⟩ := hs
  refine ⟨?_, ?_, ?_, ?_, ?_⟩
  · rw [hv]; exact h.val_wf
  · rw [hv, hc]; exact h.val_inside
  · rw [hc, hp]; exact h.pstate_legal
  · rw [hp, hn, hl]; exact h.collecting
  · rw [hp, hn]; exact h.not_collecting

theorem BulkOk.congr {s t : State} (h : BulkOk s) (hs : SameBusy s t) : BulkOk t := fun q => by
  rw [hs q]; exact h q

theorem State.Inv.congr {s t : State} (h : s.Inv) (hs : SameBlock s t) : t.Inv :=
  .of_parts (h.ring.congr hs.collection.cfg hs.cells) (h.collection.congr hs.collection) (h.bulk.congr hs.busy)

/-- An empty ring holds nothing that must have been written (10_state.md R23). -/
theorem RingOk.of_empty {s : State} (he : s.isEmpty = true) (hw : s.rb.wf) (hi : ∀ x ∈ s.rb, x.1 < s.cfg.cap) :
    RingOk s := by
  have hu := s.isEmpty_iff.1 he
  exact ⟨hu ▸ Nat.zero_le _, fun i h => absurd (hu ▸ h) (Nat.not_lt_zero i), hw, hi⟩

/-! ### Construction (10_state.md R37) -/

theorem State.constructed_inv (cfg : Cfg) (n : Nat) : (State.constructed cfg n).Inv := by
  refine .of_parts (.of_empty rfl .nil nofun) ⟨.nil, nofun, ?_, nofun, fun _ => rfl⟩ fun q => ?_
  · simp only [State.constructed]; cases cfg.profile <;> rfl
  · cases q <;> trivial

/-- Settles O5: an empty ring, an empty value buffer, the parser in AwaitMark and both ports idle. -/
theorem constructedStateMeetsTheInvariant : Obligations.ConstructedStateMeetsTheInvariant := by
  unfold Obligations.ConstructedStateMeetsTheInvariant
  exact ⟨State.constructed_inv, State.constructed_inv _ _⟩

/-- Construction applied again leaves the block of a new construction (70_reset_and_hazards.md R251). -/
theorem State.rebuild_sameBlock (s : State) : SameBlock (State.constructed s.cfg (s.epoch + 1)) s.rebuild :=
  ⟨⟨rfl, rfl, rfl⟩, ⟨rfl, rfl, rfl, rfl, rfl⟩, fun q => by cases q <;> rfl, rfl⟩

/-! ### The ring -/

/-- HEAD's successor counts logical indices from one further on. -/
theorem State.advanceHead_index (s : State) (i : Nat) :
    s.advanceHead.head + BitVec.ofNat 32 i = s.head + BitVec.ofNat 32 (i + 1) := by
  rw [State.advanceHead_head, Nat.add_comm i, BitVec.ofNat_add, BitVec.add_assoc]
  rfl

theorem RingOk.pushByte {s : State} (h : RingOk s) (b : Byte) (hf : s.usedCount.toNat < s.cfg.cap) :
    RingOk (s.pushByte b) := by
  have hu := s.usedCount_pushByte b hf
  refine ⟨?_, fun i hi => ?_, Memory.wf_set _ b h.rb_wf, Memory.set_inside b (s.phys_lt s.tail) h.rb_inside⟩
  · rw [hu]; exact hf
  · rw [State.pushByte_rb, State.pushByte_head, State.phys_congr (s.pushByte_cfg b), Memory.get_set]
    split
    · rfl
    · rename_i hne
      refine h.live_written i ?_
      rcases Nat.lt_succ_iff_lt_or_eq.1 (hu ▸ hi) with hlt | rfl
      · exact hlt
      · exact absurd (congrArg s.phys s.tail_eq.symm) hne

theorem RingOk.advanceHead {s : State} (h : RingOk s) (he : s.isEmpty = false) : RingOk s.advanceHead := by
  have hu := s.usedCount_pop he
  refine ⟨?_, fun i hi => ?_, h.rb_wf, h.rb_inside⟩
  · exact le_trans (by omega) h.used_le
  · rw [s.advanceHead_index]
    exact h.live_written (i + 1) (by omega)

/-- A ring that is not full holds less than `N` bytes (10_state.md R23). -/
theorem RingOk.used_lt {s : State} (h : RingOk s) (hf : s.isFull = false) : s.usedCount.toNat < s.cfg.cap := by
  refine lt_of_le_of_ne h.used_le fun e => ?_
  rw [s.isFull_iff.2 e] at hf
  cases hf

theorem RingOk.change {i : Instr} {s u : State} (h : RingOk s) (k : Change i s u) : RingOk u := by
  have hc := k.fixed.cfg
  rcases k.ring with e | ⟨b, hf, e⟩ | ⟨he, e⟩ | ⟨-, e⟩
  · exact h.congr hc e
  · exact (h.pushByte b (h.used_lt hf)).congr hc e
  · exact (h.advanceHead he).congr hc e
  · exact (RingOk.of_empty (s := s.clearRing) rfl h.rb_wf h.rb_inside).congr hc e

/-! ### The collection of a value -/

theorem CollectionOk.of_not_collecting {s t : State} (h : CollectionOk s) (hc : t.cfg = s.cfg) (hv : t.val = s.val)
    (hl : pstateOf t.cfg.profile t.pstate = true) (hq : t.pstate ≠ .awaitValue) (hn : t.byteCnt = 0) :
    CollectionOk t :=
  ⟨hv ▸ h.val_wf, hv ▸ hc ▸ h.val_inside, hl, fun e => absurd e hq, fun _ => hn⟩

theorem CollectionOk.valWrite {s : State} (h : CollectionOk s) {a : Nat} (b : Byte) (ha : a < s.cfg.vcap) :
    CollectionOk (s.valWrite a b) :=
  ⟨Memory.wf_set _ b h.val_wf, Memory.set_inside b ha h.val_inside, h.pstate_legal, h.collecting, h.not_collecting⟩

/-- Only a write of `F.LEN` touches what collection rests on (10_state.md R32, 45_register_access.md R201). -/
theorem Frame.len_set_of_ne (f : Frame) {r : FReg} (v : Byte) (h : r ≠ .len) : (f.set r v).len = f.len :=
  f.get_set_ne v (Ne.symm h)

theorem CollectionOk.setF {s : State} (h : CollectionOk s) {r : FReg} (v : Byte)
    (hl : ¬ (r = .len ∧ s.pstate = .awaitValue)) : CollectionOk (s.setF r v) := by
  refine ⟨h.val_wf, h.val_inside, h.pstate_legal, fun hq => ?_, h.not_collecting⟩
  rw [State.setF_frame, Frame.len_set_of_ne _ _ fun hr => hl ⟨hr, hq⟩]
  exact h.collecting hq

theorem CollectionOk.abandonFrame {s : State} (h : CollectionOk s) : CollectionOk s.abandonFrame :=
  h.of_not_collecting rfl rfl (by cases hp : s.cfg.profile <;> simp [hp, pstateOf]) nofun rfl

theorem CollectionOk.recordLen {s : State} (h : CollectionOk s) (b : Byte) : CollectionOk (s.recordLen b).1 := by
  rcases s.recordLen_cases b with ⟨hb, e⟩ | ⟨-, hp, e⟩ | ⟨-, -, e⟩ <;> rw [e]
  · refine ⟨h.val_wf, h.val_inside, ?_, fun _ => ?_, fun hq => absurd rfl hq⟩
    · cases hp : s.cfg.profile <;> simp [hp, pstateOf]
    · have : b.toNat ≠ 0 := fun e => hb (BitVec.eq_of_toNat_eq e)
      exact Nat.pos_of_ne_zero this
  · exact h.of_not_collecting rfl rfl (by simp [hp, pstateOf]) nofun rfl
  · exact h.of_not_collecting rfl rfl (by cases hp : s.cfg.profile <;> simp [hp, pstateOf]) nofun rfl

/-- While a value is collected into a buffer it fits, the byte counter is a cell of the buffer (10_state.md R27, R32). -/
theorem CollectionOk.byteCnt_lt {s : State} (h : CollectionOk s) (hq : s.pstate = .awaitValue) (hl : s.lenFits = true) :
    s.byteCnt.toNat < s.cfg.vcap := (h.collecting hq).trans_le (s.lenFits_iff.1 hl)

theorem CollectionOk.parseValue {s : State} (h : CollectionOk s) (hq : s.pstate = .awaitValue) (b : Byte) :
    CollectionOk (s.parseValue b).1 := by
  have hlt := h.collecting hq
  rcases s.parseValue_cases b with ⟨-, e⟩ | ⟨hl, hne, e⟩ | ⟨hl, -, hp, e⟩ | ⟨hl, -, -, e⟩ <;> rw [e]
  · exact h.abandonFrame
  all_goals have hw := h.valWrite b (h.byteCnt_lt hq hl)
  · refine ⟨hw.val_wf, hw.val_inside, hw.pstate_legal, fun _ => ?_, fun hn => absurd hq hn⟩
    have hne : (s.byteCnt + 1).toNat ≠ s.frame.len.toNat := fun e => hne (BitVec.eq_of_toNat_eq e)
    have hs : (s.byteCnt + 1).toNat = s.byteCnt.toNat + 1 := by
      have := s.frame.len.isLt
      rw [BitVec.toNat_add, show (1 : Byte).toNat = 1 from rfl]
      omega
    simp only [State.setByteCnt_byteCnt, State.setByteCnt_frame, State.valWrite_frame]
    omega
  · exact hw.of_not_collecting rfl rfl (by simp [hp, pstateOf]) nofun rfl
  · exact hw.of_not_collecting rfl rfl (by cases hp : s.cfg.profile <;> simp [hp, pstateOf]) nofun rfl

/-- A byte of a fixed field leads to a state of the same profile that collects no value (10_state.md R31). -/
theorem fixedField_legal {p : Profile} {q n : PState} {r : FReg} (h : fixedField q = some (r, n))
    (hq : pstateOf p q = true) : pstateOf p n = true ∧ n ≠ .awaitValue ∧ q ≠ .awaitValue := by
  cases q <;> cases h <;> revert hq <;> cases p <;> decide

theorem afterMark_legal (p : Profile) : pstateOf p (afterMark p) = true ∧ afterMark p ≠ .awaitValue := by
  cases p <;> decide

/-- A step that records one fixed byte outside AwaitValue. -/
theorem CollectionOk.record {s : State} (h : CollectionOk s) (r : FReg) (b : Byte) {n : PState}
    (hl : pstateOf s.cfg.profile n = true) (hn : n ≠ .awaitValue) (hq : s.pstate ≠ .awaitValue) :
    CollectionOk (s.record r b n).1 := h.of_not_collecting rfl rfl hl hn (h.not_collecting hq)

/-- The parser keeps its part of the invariant (42_frame_parser.md R130 to R149). -/
theorem CollectionOk.parse {s : State} (h : CollectionOk s) (b : Byte) : CollectionOk (s.parse b).1 := by
  have legal := h.pstate_legal
  rcases s.parse_cases b with ⟨-, -, e⟩ | ⟨hq, -, e⟩ | ⟨r, n, hf, e⟩ | ⟨-, -, e⟩ | ⟨-, -, -, e⟩ | ⟨d, -, -, -, e⟩ |
    ⟨hq, e⟩ | ⟨hq, hp, e⟩ | ⟨hq, hp, e⟩ <;> rw [e]
  · exact h
  · obtain ⟨hl, hn⟩ := afterMark_legal s.cfg.profile
    exact h.record _ b hl hn (by rw [hq]; nofun)
  · obtain ⟨hl, hn, hq⟩ := fixedField_legal hf legal
    exact h.record r b hl hn hq
  · exact h.recordLen b
  · exact h.abandonFrame
  · exact h.recordLen d
  · exact h.parseValue hq b
  · exact h.of_not_collecting rfl rfl (by simp [hp, pstateOf]) nofun (h.not_collecting (by rw [hq]; nofun))
  · refine h.record _ b ?_ nofun (by rw [hq]; nofun)
    rw [hq] at legal
    cases hpr : s.cfg.profile
    · exact absurd hpr hp
    · rfl
    · rw [hpr] at legal; cases legal

end Sys2Proof.Machine
end

section
/-! PROOFS. What one command does to the value buffer and to the bulk command in execution, what one step runs, and so:
every step keeps the invariant and treats the ring as a queue, and no command writes past the value buffer. -/

namespace Sys2Proof.Machine

/-! ### What a command does to the collection of a value -/

theorem State.countValid_collection (s : State) : SameCollection s s.countValid := ⟨rfl, rfl, rfl, rfl, rfl⟩

theorem State.countError_collection (s : State) : SameCollection s s.countError := ⟨rfl, rfl, rfl, rfl, rfl⟩

theorem State.judge_collection (s : State) : SameCollection s s.judge.1 := by
  rcases s.judge_fst with h | h <;> rw [h]
  exacts [s.countValid_collection, s.countError_collection]

theorem State.verifyCompleted_collection (s : State) : SameCollection s s.verifyCompleted.1 := by
  rcases s.verifyCompleted_fst with h | h <;> rw [h]
  exacts [s.countValid_collection, s.countError_collection]

/-- All that a command can do to what a value is collected in and by: nothing, one parser step, one WRF, or one WRV
(10_state.md R27, R32). -/
theorem Change.collection {i : Instr} {s u : State} (h : Change i s u) :
    SameCollection s u ∨
    (∃ t b, SameCollection s t ∧ SameCollection (t.parse b).1 u) ∨
    (∃ r v, ¬ (r = .len ∧ s.pstate = .awaitValue) ∧ u = s.setF r v) ∨
    (∃ a b, a < s.cfg.vcap ∧ u = s.valWrite a b) := by
  have pop : SameCollection s s.advanceHead := ⟨rfl, rfl, rfl, rfl, rfl⟩
  cases h
  case step b _ => exact .inr (.inl ⟨s, b, .refl _, .refl _⟩)
  case verify => exact .inl s.judge_collection
  case decode1 => exact .inr (.inl ⟨_, _, pop, .refl _⟩)
  case decode1Complete => exact .inr (.inl ⟨_, _, pop, State.verifyCompleted_collection _⟩)
  case process => exact .inr (.inl ⟨_, _, pop, .refl _⟩)
  case processInvalid => exact .inr (.inl ⟨_, _, pop, State.verifyCompleted_collection _⟩)
  case processValid u _ _ _ hx =>
    refine .inr (.inl ⟨_, s.rbRead (s.phys s.head), pop, ?_⟩)
    rw [hx]
    exact ⟨rfl, rfl, rfl, rfl, rfl⟩
  case wrf a v r _ _ hl => exact .inr (.inr (.inl ⟨r, v, hl, rfl⟩))
  case wrv b a _ ha => exact .inr (.inr (.inr ⟨_, b, ha, rfl⟩))
  all_goals exact .inl ⟨rfl, rfl, rfl, rfl, rfl⟩

theorem CollectionOk.change {i : Instr} {s u : State} (h : CollectionOk s) (k : Change i s u) : CollectionOk u := by
  rcases k.collection with e | ⟨t, b, e, e'⟩ | ⟨r, v, hl, rfl⟩ | ⟨a, b, ha, rfl⟩
  · exact h.congr e
  · exact ((h.congr e).parse b).congr e'
  · exact h.setF v hl
  · exact h.valWrite b ha

/-- A command's change leaves every cell at or past `VCAP` (10_state.md R27). -/
theorem Change.val_get {i : Instr} {s u : State} (h : CollectionOk s) (k : Change i s u) {a : Nat}
    (ha : s.cfg.vcap ≤ a) : u.val.get a = s.val.get a := by
  rcases k.collection with e | ⟨t, b, e, e'⟩ | ⟨r, v, -, rfl⟩ | ⟨c, b, hc, rfl⟩
  · rw [e.val]
  · rw [e'.val, ← e.val]
    rcases t.parse_val b with hv | ⟨hq, hl, hv⟩ <;> rw [hv]
    have hlt := (h.congr e).byteCnt_lt hq hl
    rw [e.cfg] at hlt
    exact Memory.get_set_ne _ _ (by omega)
  · rfl
  · exact Memory.get_set_ne _ _ (by omega)

/-- However a command ends, what its change leaves is touched in the ports alone. -/
theorem Effect.change {i : Instr} {s t : State} (e : Effect i s t) :
    ∃ u p c, Change i s u ∧ t = { u with portP := p, portC := c } := by
  cases e with
  | answer u rs k => exact ⟨u, _, _, k, rfl⟩
  | finish u rs k => exact ⟨u, _, _, k, rfl⟩
  | goOn u r k _ => exact ⟨u, _, _, k, rfl⟩

/-- Settles O44: the byte counter of a value that fits is below `VCAP`, and so is WRV's index. -/
theorem noCommandWritesPastTheValueBuffer : Obligations.NoCommandWritesPastTheValueBuffer := by
  unfold Obligations.NoCommandWritesPastTheValueBuffer
  intro i s t a hs h ha
  obtain ⟨u, p, c, k, rfl⟩ := (exec_effect h).change
  exact k.val_get hs.collection ha

/-! ### What a command does to the bulk commands -/

theorem BulkOk.setRunning {s : State} (h : BulkOk s) {r : Option Running} (hr : runLegal s.cur r) :
    BulkOk (s.setRunning r) := fun q => by
  by_cases hq : q = s.cur
  · rw [hq, s.busy_setRunning_cur]; exact hr
  · rw [State.setRunning, s.port_setPort_ne _ hq]; exact h q

theorem runLegal_none (q : Port) : runLegal q none := by cases q <;> trivial

/-- A bulk command a port may run has an encoding (30_encoding.md R77). -/
theorem wf_of_runLegal {q : Port} {r : Running} (h : runLegal q (some r)) : r.instr.wf = true := by
  rw [Instr.wf_iff]
  cases q <;> cases r
  case p.pushall => exact h.2
  case c.crc16 => exact h.2.1
  case c.popall | c.process => exact Nat.zero_le _
  all_goals exact h.elim

/-- The current port may run `i` next: it has an encoding, and a bulk command in execution there is this very one. -/
def Due (i : Instr) (s : State) : Prop := i.wf = true ∧ ∀ r, s.running = some r → r.instr = i

/-- The private accumulator holds the checksum of the bytes folded so far (41_checksum.md R126). -/
theorem crc16Position_eq {s : State} {ps : List Byte} (h : BulkOk s) (hc : s.cur = .c) (hd : Due (.crc16 ps) s) :
    s.crc16Position.2 = crc16 (ps.take s.crc16Position.1) := by
  have legal := h s.cur
  unfold State.crc16Position
  cases hr : s.running with
  | none => rfl
  | some r =>
    have hi := hd.2 r hr
    rw [State.running] at hr
    rw [hc] at legal hr
    rw [hr] at legal
    cases r <;> cases hi
    exact legal.2.2

theorem crc16_take_succ {ps : List Byte} {n : Nat} {b : Byte} (h : ps[n]? = some b) :
    crc16 (ps.take (n + 1)) = crcUpd (crc16 (ps.take n)) b := by
  rw [List.take_add_one, h, crc16, crcAcc, List.foldl_append]
  rfl

/-- How far a bulk command gets is within what its port may run. -/
theorem Progress.legal {i : Instr} {s : State} {r : Running} (p : Progress i s r) (h : BulkOk s) (hd : Due i s) :
    runLegal s.cur (some r) := by
  cases p with
  | pushall ps _ hc hn => rw [hc]; exact ⟨hn, (Instr.wf_iff _).1 hd.1⟩
  | popall m b _ hc hn =>
    rw [hc]
    show (s.popallOut ++ [b]).length ≤ m.toNat
    rw [List.length_append]
    exact hn
  | crc16 ps b _ hc hb =>
    rw [hc]
    refine ⟨(List.getElem?_eq_some_iff.1 hb).1, (Instr.wf_iff _).1 hd.1, ?_⟩
    rw [crc16Position_eq h hc hd, crc16_take_succ hb]
  | process _ hc => rw [hc]; trivial

theorem BulkOk.change {i : Instr} {s u : State} (h : BulkOk s) (k : Change i s u) : BulkOk u :=
  h.congr fun q => by cases q; exacts [congrArg _ k.fixed.portP, congrArg _ k.fixed.portC]

theorem State.Inv.change {i : Instr} {s u : State} (h : s.Inv) (k : Change i s u) : u.Inv :=
  .of_parts (h.ring.change k) (h.collection.change k) (h.bulk.change k)

/-! ### What a command does to the invariant -/

theorem State.respondAll_sameBlock (s : State) (rs : List Resp) : SameBlock s (s.respondAll rs) :=
  ⟨⟨rfl, rfl, rfl⟩, ⟨rfl, rfl, rfl, rfl, rfl⟩, s.busy_respondAll rs, rfl⟩

theorem State.Inv.setRunning {s : State} (h : s.Inv) {r : Option Running} (hr : runLegal s.cur r) :
    (s.setRunning r).Inv :=
  .of_parts (h.ring.congr rfl ⟨rfl, rfl, rfl⟩) (h.collection.congr ⟨rfl, rfl, rfl, rfl, rfl⟩)
    (h.bulk.setRunning hr)

theorem State.Inv.effect {i : Instr} {s t : State} (h : s.Inv) (hd : Due i s) (e : Effect i s t) : t.Inv := by
  cases e with
  | answer u rs k => exact (h.change k).congr (u.respondAll_sameBlock rs)
  | finish u rs k => exact ((h.change k).setRunning (runLegal_none _)).congr (State.respondAll_sameBlock _ rs)
  | goOn u r k p =>
    have legal := p.legal h.bulk hd
    rw [← k.fixed.cur] at legal
    exact (h.change k).setRunning legal

/-! ### What a step runs -/

theorem ite_ok_iff {ε α : Type} {c : Prop} [Decidable c] {e : ε} {x y : α} :
    (if c then .ok x else .error e : Except ε α) = .ok y ↔ c ∧ x = y := by split <;> simp_all

/-- A decoded command has no payload but the bytes that followed its header beat (30_encoding.md R77). -/
theorem decodeFields_payload {op a : Byte} {imm : Half} {ps : List Byte} {i : Instr}
    (h : decodeFields op a imm ps = .ok i) : i.payload = [] ∨ i.payload = ps := by
  unfold decodeFields at h
  split at h
  case h_26 => cases h; exact .inl rfl
  case h_28 => cases h
  all_goals
    simp only [fmtZ, fmtA, fmtI, fmtV, fmtWrf, ite_ok_iff] at h
    obtain ⟨-, rfl⟩ := h
    simp [Instr.payload]

theorem payloadBeats_le (cw : Beat) : payloadBeats cw ≤ maxPayload := by
  have := (immOf cw).isLt
  unfold payloadBeats maxPayload
  split <;> omega

/-- A header beat announces no more payload than a command may have, so what is decoded has an encoding (30_encoding.md
R73, R77). -/
theorem wf_of_decode {bs rest : List Beat} {i : Instr} (h : decode bs = .ok i rest) : i.wf = true := by
  unfold decode at h
  split at h
  · cases h
  · rename_i cw bs
    split at h
    · cases h
    · split at h <;> cases h
      rename_i hd
      have hlen : ((bs.take (payloadBeats cw)).map payloadByte).length ≤ maxPayload := by
        rw [List.length_map]
        exact (List.length_take_le _ _).trans (payloadBeats_le cw)
      rw [Instr.wf_iff]
      rcases decodeFields_payload hd with e | e <;> rw [e]
      · exact Nat.zero_le _
      · exact hlen

/-- Where nothing was sent too early, the beats of a port with no bulk command in execution are one command at most. -/
theorem PortState.rest_nil {x : PortState} {i : Instr} {rest : List Beat} (ho : x.overrun = false) (hb : x.busy = none)
    (hd : decode x.inbox = .ok i rest) : rest = [] := by
  unfold PortState.overrun at ho
  rw [hb, hd] at ho
  simpa using ho

theorem State.orderly_port {s : State} (h : s.orderly = true) (q : Port) : (s.port q).overrun = false := by
  obtain ⟨hp, hc, -⟩ := s.orderly_iff.1 h
  cases q; exacts [hp, hc]

theorem State.setInbox_sameBlock (s : State) (bs : List Beat) : SameBlock s (s.setInbox bs) :=
  ⟨⟨rfl, rfl, rfl⟩, ⟨rfl, rfl, rfl, rfl, rfl⟩, s.busy_setInbox bs, rfl⟩

/-- The command a port has next: the bulk command in execution, or the one command sent (20_memory.md R58, R60). -/
def PortState.Offers (x : PortState) (i : Instr) : Prop :=
  (∃ r, x.busy = some r ∧ r.instr = i) ∨ (x.busy = none ∧ decode x.inbox = .ok i [])

/-- The command a port has next is one it may run next. -/
theorem PortState.Offers.due {s u : State} {i : Instr} (h : BulkOk s) (hs : SameBlock s u)
    (ho : (s.port u.cur).Offers i) : Due i u := by
  have hrun : u.running = (s.port u.cur).busy := hs.busy u.cur
  have legal := h u.cur
  rcases ho with ⟨r, hb, rfl⟩ | ⟨hb, hd⟩ <;> rw [hb] at hrun legal
  · refine ⟨wf_of_runLegal legal, fun r' hr' => ?_⟩
    rw [hrun] at hr'
    cases hr'
    rfl
  · refine ⟨wf_of_decode hd, fun r' hr' => ?_⟩
    rw [hrun] at hr'
    cases hr'

/-- No bulk command is FLUSH: a port that has FLUSH next has been sent it. -/
theorem PortState.Offers.flush_sent {x : PortState} (h : x.Offers .flush) :
    x.busy = none ∧ decode x.inbox = .ok .flush [] := by
  rcases h with ⟨r, -, hr⟩ | h
  · cases r <;> cases hr
  · exact h

/-- What a step can do but reset (20_memory.md R58): leave the block as it is, or run the command a port has next on the
block as it was. -/
theorem advance_runs {s t : State} (hr : s.resetReq = false) (h : s.advance = .next t) :
    SameBlock s t ∨ ∃ i u, SameBlock s u ∧ (s.port u.cur).Offers i ∧ exec i u = .next t := by
  rcases step_cases h with ⟨hr', -, -⟩ | ⟨-, -, -, rfl⟩ | ⟨-, ho, u, hu, hrun⟩
  · rw [hr] at hr'; cases hr'
  · exact .inl (.refl t)
  · obtain ⟨q, gs, n, rfl, -⟩ := State.arbitrate_cases hu
    have sel : SameBlock s { s with cur := q, grants := gs, draws := n } :=
      ⟨⟨rfl, rfl, rfl⟩, ⟨rfl, rfl, rfl, rfl, rfl⟩, fun _ => rfl, rfl⟩
    rcases State.runCurrent_cases hrun with ⟨r, hb, he⟩ | ⟨-, -, rfl⟩ | ⟨i, rest, hb, hd, he⟩ | ⟨e, rest, -, -, rfl⟩
    · exact .inr ⟨_, _, sel, .inl ⟨r, hb, rfl⟩, he⟩
    · exact .inl sel
    · obtain rfl := PortState.rest_nil (State.orderly_port ho q) hb hd
      exact .inr ⟨i, _, sel.trans (State.setInbox_sameBlock _ _), .inr ⟨hb, hd⟩, he⟩
    · exact .inl ((sel.trans (State.setInbox_sameBlock _ _)).trans (State.respondAll_sameBlock _ _))

/-- Settles O4: construction again gives a new block, and the command a step runs keeps each part of the invariant. -/
theorem everyStepKeepsTheInvariant : Obligations.EveryStepKeepsTheInvariant := by
  unfold Obligations.EveryStepKeepsTheInvariant
  intro s t hs h
  cases hr : s.resetReq
  · rcases advance_runs hr h with e | ⟨i, u, e, ho, he⟩
    · exact hs.congr e
    · exact (hs.congr e).effect (ho.due hs.bulk e) (exec_effect he)
  · rcases step_cases h with ⟨-, -, rfl⟩ | ⟨hr', -⟩ | ⟨hr', -⟩
    · exact (State.constructed_inv _ _).congr s.rebuild_sameBlock
    all_goals rw [hr] at hr'; cases hr'

/-! ### The ring as a queue -/

/-- Where ring storage and both indices agree, the bytes held do. -/
theorem State.held_of_cells {s t : State} (hc : t.cfg = s.cfg) (he : t.epoch = s.epoch) (h : SameCells s t) :
    t.held = s.held := by
  obtain ⟨hb, hh, ht⟩ := h
  exact State.held_congr hc ⟨fun a => by rw [State.rbRead, State.rbRead, hb, he], hh, ht⟩

/-- A PUSH into a ring that is not full writes no live cell (40_ring_buffer.md R100, R101). -/
theorem State.phys_live_ne_tail (s : State) {i : Nat} (hi : i < s.usedCount.toNat)
    (hf : s.usedCount.toNat < s.cfg.cap) :
    s.phys (s.head + BitVec.ofNat 32 i) ≠ s.phys s.tail := fun e => by
  rw [s.tail_eq] at e
  exact absurd (s.phys_add_inj s.head (hi.trans hf) hf e) (Nat.ne_of_lt hi)

/-- PUSH's body appends its byte to the bytes held (40_ring_buffer.md R101). -/
theorem State.held_pushByte (s : State) (b : Byte) (hf : s.usedCount.toNat < s.cfg.cap) :
    (s.pushByte b).held = s.held ++ [b] := by
  unfold State.held
  rw [s.usedCount_pushByte b hf, List.range_succ, List.map_append, List.map_singleton]
  congr 1
  · refine List.map_congr_left fun i hi => ?_
    rw [State.rbRead_pushByte, State.pushByte_head, State.phys_congr (s.pushByte_cfg b),
      if_neg (s.phys_live_ne_tail (List.mem_range.1 hi) hf)]
  · rw [State.rbRead_pushByte, State.pushByte_head, State.phys_congr (s.pushByte_cfg b), ← s.tail_eq, if_pos rfl]

/-- POP's body removes the oldest of the bytes held (40_ring_buffer.md R102). -/
theorem State.held_advanceHead (s : State) (he : s.isEmpty = false) :
    s.held = s.rbRead (s.phys s.head) :: s.advanceHead.held := by
  unfold State.held
  rw [← s.usedCount_pop he, List.range_succ_eq_map, List.map_cons, List.map_map]
  congr 1
  · rw [BitVec.add_zero]
  · refine List.map_congr_left fun i _ => ?_
    rw [s.advanceHead_index]
    rfl

theorem State.held_of_isEmpty {s : State} (h : s.isEmpty = true) : s.held = [] := by
  rw [State.held, s.isEmpty_iff.1 h]
  rfl

/-- A command's change treats the ring as a queue, and FLUSH on port C alone empties it (40_ring_buffer.md R111). -/
theorem Change.queue {i : Instr} {s u : State} (h : RingOk s) (k : Change i s u) :
    (u.held = s.held ∧ u.head = s.head ∧ u.tail = s.tail) ∨
    (∃ b, u.held = s.held ++ [b] ∧ u.head = s.head ∧ u.tail = s.tail + 1) ∨
    (∃ b, s.held = b :: u.held ∧ u.head = s.head + 1 ∧ u.tail = s.tail) ∨
    (u.held = [] ∧ u.head = 0 ∧ u.tail = 0 ∧ i = .flush ∧ s.cur = .c) := by
  have hc := k.fixed.cfg
  have he := k.fixed.epoch
  rcases k.ring with e | ⟨b, hf, e⟩ | ⟨hne, e⟩ | ⟨rfl, -⟩
  · exact .inl ⟨State.held_of_cells hc he e, e.2⟩
  · refine .inr (.inl ⟨b, ?_, e.2⟩)
    rw [State.held_of_cells (s := s.pushByte b) hc he e]
    exact s.held_pushByte b (h.used_lt hf)
  · refine .inr (.inr (.inl ⟨s.rbRead (s.phys s.head), ?_, e.2⟩))
    rw [State.held_of_cells (s := s.advanceHead) hc he e]
    exact s.held_advanceHead hne
  · cases k with
    | none => exact .inl ⟨rfl, rfl, rfl⟩
    | flush _ hcur _ => exact .inr (.inr (.inr ⟨State.held_of_isEmpty rfl, rfl, rfl, rfl, hcur⟩))

/-- Settles O27: what a step runs is one change of the ring; a FLUSH was sent on port C. -/
theorem everyStepTreatsTheRingAsAQueue : Obligations.EveryStepTreatsTheRingAsAQueue := by
  unfold Obligations.EveryStepTreatsTheRingAsAQueue
  intro s t hs hr h
  rcases advance_runs hr h with e | ⟨i, u, e, ho, he⟩
  · exact .inl ⟨State.held_of_cells e.collection.cfg e.epoch e.cells, e.cells.2⟩
  · obtain ⟨v, p, c, k, rfl⟩ := (exec_effect he).change
    obtain ⟨-, hhead, htail⟩ := e.cells
    rw [← State.held_of_cells e.collection.cfg e.epoch e.cells, ← hhead, ← htail]
    refine (k.queue (hs.congr e).ring).imp_right (.imp_right (.imp_right ?_))
    rintro ⟨hheld, hhead, htail, rfl, hcur⟩
    rw [hcur] at ho
    exact ⟨hheld, hhead, htail, k.fixed.cur.trans hcur, ho.flush_sent⟩

end Sys2Proof.Machine
end

section
/-! PROOFS. The CRC accumulator is private to its commands (10_state.md R33): every other command does the same whatever
the accumulator holds. -/

namespace Sys2Proof.Machine

section

variable (s : State) (v : Half)

/-! ### What is not computed from the accumulator -/

theorem State.lenFits_setCrc : (s.setCrc v).lenFits = s.lenFits := rfl

theorem State.isFull_setCrc : (s.setCrc v).isFull = s.isFull := rfl

theorem State.matched_setCrc : (s.setCrc v).matched = s.matched := rfl

theorem State.pushallPosition_setCrc : (s.setCrc v).pushallPosition = s.pushallPosition := rfl

theorem State.popallOut_setCrc : (s.setCrc v).popallOut = s.popallOut := rfl

theorem State.crc16Position_setCrc : (s.setCrc v).crc16Position = s.crc16Position := rfl

theorem State.wireLength_setCrc : (s.setCrc v).wireLength = s.wireLength := rfl

theorem State.producerQuiet_setCrc : (s.setCrc v).producerQuiet = s.producerQuiet := rfl

/-! ### The shared operations do not see the accumulator -/

theorem State.onlyP_setCrc {k : State → State} (h : k (s.setCrc v) = (k s).setCrc v) :
    (s.setCrc v).onlyP k = (s.onlyP k).setCrc v := by
  unfold State.onlyP
  rw [State.setCrc_cur]
  cases s.cur
  · exact h
  · rfl

theorem State.onlyC_setCrc {k : State → State} (h : k (s.setCrc v) = (k s).setCrc v) :
    (s.setCrc v).onlyC k = (s.onlyC k).setCrc v := by
  unfold State.onlyC
  rw [State.setCrc_cur]
  cases s.cur
  · rfl
  · exact h

theorem State.transmitGuard_setCrc {k : State → State} (h : k (s.setCrc v) = (k s).setCrc v) :
    (s.setCrc v).transmitGuard k = (s.transmitGuard k).setCrc v := by
  unfold State.transmitGuard
  rw [State.setCrc_cfg, s.lenFits_setCrc v]
  split
  · rfl
  · split
    · exact h
    · rfl

theorem State.popByte_setCrc : (s.setCrc v).popByte = s.popByte.map (Prod.map id (State.setCrc · v)) := by
  rcases s.popByte_cases with ⟨he, e⟩ | ⟨he, e⟩ <;> rw [e]
  · exact State.popByte_none he
  · exact State.popByte_some he

theorem State.afterValue_setCrc : (s.setCrc v).afterValue = s.afterValue.map (State.setCrc · v) id := by
  unfold State.afterValue
  rw [State.setCrc_cfg]
  cases s.cfg.profile <;> rfl

theorem State.afterLen_setCrc : (s.setCrc v).afterLen = s.afterLen.map (State.setCrc · v) id := by
  unfold State.afterLen
  rw [State.setCrc_frame]
  split
  · exact s.afterValue_setCrc v
  · rfl

theorem State.recordLen_setCrc (b : Byte) : (s.setCrc v).recordLen b = (s.recordLen b).map (State.setCrc · v) id :=
  ((s.setF .len b).setByteCnt 0).afterLen_setCrc v

theorem State.parseLen_setCrc (b : Byte) : (s.setCrc v).parseLen b = (s.parseLen b).map (State.setCrc · v) id := by
  unfold State.parseLen
  rw [State.setCrc_cfg]
  cases s.cfg.lenMode
  · exact s.recordLen_setCrc v b
  · cases hexval b
    · rfl
    · exact s.recordLen_setCrc v _

theorem State.parseValue_setCrc (b : Byte) : (s.setCrc v).parseValue b = (s.parseValue b).map (State.setCrc · v) id := by
  unfold State.parseValue
  rw [s.lenFits_setCrc v, State.setCrc_byteCnt, State.setCrc_frame]
  split
  · split
    · exact ((s.valWrite s.byteCnt.toNat b).setByteCnt 0).afterValue_setCrc v
    · rfl
  · rfl

theorem State.parse_setCrc (b : Byte) : (s.setCrc v).parse b = (s.parse b).map (State.setCrc · v) id := by
  unfold State.parse
  rw [State.setCrc_pstate]
  cases s.pstate
  case awaitMark => dsimp only; split <;> rfl
  case awaitLen => exact s.parseLen_setCrc v b
  case awaitValue => exact s.parseValue_setCrc v b
  case awaitChecksumHigh =>
    unfold State.parseChecksumHigh
    rw [State.setCrc_cfg]
    cases s.cfg.profile <;> rfl
  all_goals rfl

theorem State.judge_setCrc : (s.setCrc v).judge = s.judge.map (State.setCrc · v) id := by
  unfold State.judge
  rw [s.matched_setCrc v]
  split <;> rfl

theorem State.verify_setCrc : (s.setCrc v).verify = s.verify.map (Prod.map (State.setCrc · v) id) := by
  unfold State.verify
  rw [State.setCrc_cfg, s.lenFits_setCrc v]
  split
  · exact congrArg some (s.judge_setCrc v)
  · rfl

theorem State.verifyCompleted_setCrc : (s.setCrc v).verifyCompleted = s.verifyCompleted.map (State.setCrc · v) id := by
  unfold State.verifyCompleted
  rw [s.verify_setCrc v]
  cases s.verify <;> rfl

/-! ### The commands -/

/-- A command that is none of the accumulator's four does from any value of the accumulator what it does from the one it
finds (41_checksum.md R129). -/
theorem exec_setCrc {i : Instr} {t : State} (h : exec i s = .next t) (hinit : i ≠ .crcinit)
    (hseed : ∀ x, i ≠ .crcseed x) (hacc : ∀ b, i ≠ .crcacc b) (hrd : i ≠ .crcrd) :
    exec i (s.setCrc v) = .next (t.setCrc v) := by
  cases i
  case flush =>
    unfold exec execFlush at h ⊢
    rw [State.setCrc_cur, s.producerQuiet_setCrc v]
    revert h
    cases s.cur
    · intro h; cases h; rfl
    · cases s.producerQuiet <;> intro h <;> cases h
      rfl
  all_goals injection h with h; subst h
  case push b =>
    refine congrArg _ (s.onlyP_setCrc v ?_)
    rw [s.isFull_setCrc v]
    cases s.isFull <;> rfl
  case pop | peek =>
    refine congrArg _ (s.onlyC_setCrc v ?_)
    rw [s.popByte_setCrc v]
    cases s.popByte <;> rfl
  case pushall ps =>
    refine congrArg _ (s.onlyP_setCrc v ?_)
    rw [s.pushallPosition_setCrc v, s.isFull_setCrc v]
    cases ps[s.pushallPosition]?
    · rfl
    · cases s.isFull <;> rfl
  case popall m =>
    refine congrArg _ (s.onlyC_setCrc v ?_)
    rw [s.popallOut_setCrc v, s.popByte_setCrc v]
    split
    · rfl
    · cases s.popByte <;> rfl
  case crc16 ps =>
    refine congrArg _ (s.onlyC_setCrc v ?_)
    rw [s.crc16Position_setCrc v]
    cases ps[s.crc16Position.1]? <;> rfl
  case step b =>
    refine congrArg _ (s.onlyC_setCrc v ?_)
    rw [s.parse_setCrc v]
    rcases s.parse b with ⟨u, _ | _ | c⟩ <;> rfl
  case verify =>
    refine congrArg _ (s.onlyC_setCrc v ?_)
    rw [s.verify_setCrc v]
    rcases s.verify with _ | ⟨u, _ | _⟩ <;> rfl
  case pack f => exact congrArg _ (s.onlyC_setCrc v (s.transmitGuard_setCrc v rfl))
  case txb a =>
    refine congrArg _ (s.onlyC_setCrc v (s.transmitGuard_setCrc v ?_))
    rw [s.wireLength_setCrc v]
    split <;> rfl
  case clrcnt => exact congrArg _ (s.onlyC_setCrc v rfl)
  case decode1 | process =>
    refine congrArg _ (s.onlyC_setCrc v ?_)
    rw [s.popByte_setCrc v]
    rcases s.popByte with _ | ⟨b, u⟩
    · rfl
    · dsimp only [Option.map, Prod.map, id]
      rw [u.parse_setCrc v]
      rcases u.parse b with ⟨u, _ | _ | c⟩
      · rfl
      · dsimp only [Prod.map, id]
        rw [u.verifyCompleted_setCrc v]
        rcases u.verifyCompleted with ⟨u, _ | _⟩ <;> rfl
      · rfl
  case rdf a =>
    refine congrArg _ (s.onlyC_setCrc v ?_)
    cases fregOf a <;> rfl
  case wrf a x =>
    refine congrArg _ (s.onlyC_setCrc v ?_)
    cases fregOf a
    · rfl
    · dsimp only
      rw [State.setCrc_pstate]
      split <;> rfl
  case rdv | wrv =>
    refine congrArg _ (s.onlyC_setCrc v ?_)
    rw [State.setCrc_cfg]
    split <;> rfl
  case rds a =>
    refine congrArg Host.Outcome.next ?_
    cases sregOf a <;> rfl
  case crcinit => exact absurd rfl hinit
  case crcseed x => exact absurd rfl (hseed x)
  case crcacc b => exact absurd rfl (hacc b)
  case crcrd => exact absurd rfl hrd
  all_goals rfl

end

/-- Settles O35: a command that does the same for every value of the accumulator leaves the one it finds; CRCRD only
answers. -/
theorem crcAccumulatorIsPrivate : Obligations.CrcAccumulatorIsPrivate := by
  unfold Obligations.CrcAccumulatorIsPrivate
  intro i s t v h hinit hseed hacc
  by_cases hrd : i = .crcrd
  · subst hrd
    obtain ⟨u, p, c, k, rfl⟩ := (exec_effect h).change
    cases k
    exact ⟨rfl, fun hne => absurd rfl hne⟩
  · have same (w : Half) : exec i (s.setCrc w) = .next (t.setCrc w) := exec_setCrc s w h hinit hseed hacc hrd
    have keeps : Host.Outcome.next t = .next (t.setCrc s.crc) := h.symm.trans (same s.crc)
    injection keeps with keeps
    have hcrc : t.crc = (t.setCrc s.crc).crc := congrArg State.crc keeps
    exact ⟨hcrc, fun _ => same v⟩

end Sys2Proof.Machine
end

section
/-! PROOFS. What a completed frame's length can be (10_state.md R28), what becomes of one that does not fit, and who moves
the session counters (10_state.md R30). -/

namespace Sys2Proof.Machine

/-! ### Completed frames -/

/-- A frame completes on a length of zero, on the last byte of a value that fits, or, under TRAILER alone, on its trailing
checksum (42_frame_parser.md R142, R145, R147). -/
theorem State.parse_complete {s : State} {b : Byte} (h : (s.parse b).2 = .complete) :
    (s.parse b).1.frame.len = 0 ∨
    (s.lenFits = true ∧ (s.parse b).1.frame = s.frame) ∨
    s.cfg.profile = .trailer := by
  have len (x : Byte) (hx : (s.recordLen x).2 = .complete) : (s.recordLen x).1.frame.len = 0 := by
    rcases s.recordLen_cases x with ⟨-, e⟩ | ⟨-, -, e⟩ | ⟨rfl, -, e⟩ <;> rw [e] at hx ⊢
    · cases hx
    · cases hx
    · rfl
  rcases s.parse_cases b with ⟨-, -, e⟩ | ⟨-, -, e⟩ | ⟨r, n, -, e⟩ | ⟨-, -, e⟩ | ⟨-, -, -, e⟩ | ⟨d, -, -, -, e⟩ |
    ⟨-, e⟩ | ⟨-, hp, -⟩ | ⟨-, -, e⟩
  case inr.inr.inr.inl => rw [e] at h ⊢; exact .inl (len b h)
  case inr.inr.inr.inr.inr.inl => rw [e] at h ⊢; exact .inl (len d h)
  case inr.inr.inr.inr.inr.inr.inl =>
    rw [e] at h ⊢
    rcases s.parseValue_cases b with ⟨-, e⟩ | ⟨-, -, e⟩ | ⟨-, -, -, e⟩ | ⟨hl, -, -, e⟩ <;> rw [e] at h ⊢
    case inr.inr.inr => exact .inr (.inl ⟨hl, rfl⟩)
    all_goals cases h
  case inr.inr.inr.inr.inr.inr.inr.inl => exact .inr (.inr hp)
  all_goals rw [e] at h; cases h

/-- Settles O45: a length of zero fits, and a value is collected only while it fits. -/
theorem completedHeaderAndPktFramesFit : Obligations.CompletedHeaderAndPktFramesFit := by
  unfold Obligations.CompletedHeaderAndPktFramesFit
  intro s b hp h
  rcases State.parse_complete h with h0 | ⟨hl, hf⟩ | ht
  · rw [h0]; exact Nat.zero_le _
  · rw [hf]; exact s.lenFits_iff.1 hl
  · exact absurd ht hp

/-- A frame that completes counts no error (42_frame_parser.md R149). -/
theorem State.errorCount_of_complete {s : State} {b : Byte} (h : (s.parse b).2 = .complete) :
    (s.parse b).1.errorCount = s.errorCount := by
  rcases s.parse_error_cases b with ⟨e | e, -⟩ | ⟨-, e⟩
  · rw [e] at h; cases h
  · rw [e] at h; cases h
  · exact e

/-- Above `VCAP` the length is checked before the value is walked, and the frame is a mismatch (10_state.md R28; log 13). -/
theorem State.verifyCompleted_overlong {s : State} (hp : s.cfg.profile ≠ .pkt) (hl : s.cfg.vcap < s.frame.len.toNat) :
    s.verifyCompleted = (s.countError, .mismatch) := by
  have hl := s.lenFits_false_iff.2 hl
  rcases s.verifyCompleted_cases with ⟨-, h | ⟨h, -⟩⟩ | ⟨e, -⟩
  · exact absurd h hp
  · rw [hl] at h; cases h
  · exact e

/-- DECODE1 on the byte that completes a frame which does not verify (44_decode_adapter.md R190). -/
theorem exec_decode1_mismatch {s u v : State} (hc : s.cur = .c) (he : s.isEmpty = false)
    (hx : s.advanceHead.parse (s.rbRead (s.phys s.head)) = (u, .complete)) (hv : u.verifyCompleted = (v, .mismatch)) :
    exec .decode1 s = .next (v.respond .error Cause.checksumMismatch.code) := by
  simp only [exec, execDecode1, State.onlyC_c hc, State.popByte_some he, hx, hv]

/-- PROCESS on the byte that completes a frame which does not verify (44_decode_adapter.md R192, R195). -/
theorem exec_process_mismatch {s u v : State} (hc : s.cur = .c) (he : s.isEmpty = false)
    (hx : s.advanceHead.parse (s.rbRead (s.phys s.head)) = (u, .complete)) (hv : u.verifyCompleted = (v, .mismatch)) :
    exec .process s = .next (v.setRunning (some .process)) := by
  simp only [exec, execProcess, State.onlyC_c hc, State.popByte_some he, hx, hv]

/-- Settles O55: `verify()` takes the completed frame as a mismatch, whether DECODE1 or PROCESS runs it. -/
theorem completedFrameAboveCapacityIsRejected : Obligations.CompletedFrameAboveCapacityIsRejected := by
  unfold Obligations.CompletedFrameAboveCapacityIsRejected
  intro s u hc hne hp hx hl
  change s.advanceHead.parse (s.rbRead (s.phys s.head)) = (u, .complete) at hx
  have he : s.isEmpty = false := beq_false_of_ne hne
  have hout := s.advanceHead.parse_outside (s.rbRead (s.phys s.head))
  have herr := State.errorCount_of_complete (congrArg Prod.snd hx)
  rw [hx] at hout herr
  have hcfg : u.cfg = s.cfg := hout.cfg
  have hcur : u.countError.cur = .c := hout.cur.trans hc
  have hv : u.verifyCompleted = (u.countError, .mismatch) :=
    State.verifyCompleted_overlong (by rw [hcfg, hp]; nofun) (by rw [hcfg]; exact hl)
  have hcount : u.countError.errorCount = s.errorCount + 1 := congrArg (· + 1) herr
  constructor
  · exact ⟨_, exec_decode1_mismatch hc he hx hv, hcount, State.respond_onlyAnswers _ _ _⟩
  · obtain ⟨hsame, hring, hans⟩ := u.countError.setRunning_sameButRingAndBusy (some .process)
    have hbusy := u.countError.busy_setRunning_cur (some .process)
    rw [hcur] at hbusy
    exact ⟨_, exec_process_mismatch hc he hx hv, hcount, hbusy, hans, hring, hsame⟩

/-! ### The session counters -/

/-- All that a command but CLRCNT does to the session counters (10_state.md R30, 43_link_session.md R172 to R177): none
moves, PACK counts a sequence, a frame is counted valid, or an error is counted. -/
inductive CounterMove (i : Instr) (s t : State) : Prop
  | none (h : SameSession s t)
  | sent (f : Byte) (hi : i = .pack f) (htx : t.lastSeqTx = s.lastSeqTx + 1) (hrx : t.lastSeqRx = s.lastSeqRx)
    (he : t.errorCount = s.errorCount) (hv : t.validCount = s.validCount)
  | valid (hi : i = .verify ∨ i = .decode1 ∨ i = .process) (htx : t.lastSeqTx = s.lastSeqTx)
    (hrx : t.lastSeqRx = t.frame.seq) (he : t.errorCount = s.errorCount) (hv : t.validCount = s.validCount + 1)
  | error (hi : (∃ b, i = .step b) ∨ i = .verify ∨ i = .decode1 ∨ i = .process) (htx : t.lastSeqTx = s.lastSeqTx)
    (hrx : t.lastSeqRx = s.lastSeqRx) (he : t.errorCount = s.errorCount + 1) (hv : t.validCount = s.validCount)

/-- A parser step moves no session counter but `ERROR_COUNT` (42_frame_parser.md R149). -/
theorem CounterMove.parse {i : Instr} {s t : State} (h : SameSession s t) (b : Byte)
    (hi : (∃ b, i = .step b) ∨ i = .verify ∨ i = .decode1 ∨ i = .process) : CounterMove i s (t.parse b).1 := by
  have o := t.parse_outside b
  obtain ⟨hrx, htx, he, hv⟩ := h
  rcases t.parse_error_cases b with ⟨-, e⟩ | ⟨-, e⟩
  · exact .error hi (o.lastSeqTx.trans htx) (o.lastSeqRx.trans hrx) (e.trans (congrArg (· + 1) he))
      (o.validCount.trans hv)
  · exact .none ⟨o.lastSeqRx.trans hrx, o.lastSeqTx.trans htx, e.trans he, o.validCount.trans hv⟩

/-- A parser step that completes a frame moves no session counter. -/
theorem State.parse_sameSession {s : State} {b : Byte} (h : (s.parse b).2 = .complete) :
    SameSession s (s.parse b).1 := by
  have o := s.parse_outside b
  exact ⟨o.lastSeqRx, o.lastSeqTx, State.errorCount_of_complete h, o.validCount⟩

/-- A frame is counted, as valid or as an error. -/
theorem CounterMove.counted {i : Instr} {s t u : State} (hi : i = .verify ∨ i = .decode1 ∨ i = .process)
    (h : SameSession s t) (hu : u = t.countValid ∨ u = t.countError) : CounterMove i s u := by
  obtain ⟨hrx, htx, he, hv⟩ := h
  rcases hu with rfl | rfl
  · exact .valid hi htx rfl he (congrArg (· + 1) hv)
  · exact .error (.inr hi) htx hrx (congrArg (· + 1) he) hv

theorem Change.counters {i : Instr} {s u : State} (k : Change i s u) (hi : i ≠ .clrcnt) : CounterMove i s u := by
  have pop : SameSession s s.advanceHead := ⟨rfl, rfl, rfl, rfl⟩
  cases k
  case clrcnt => exact absurd rfl hi
  case step b _ => exact .parse ⟨rfl, rfl, rfl, rfl⟩ b (.inl ⟨b, rfl⟩)
  case verify => exact .counted (.inl rfl) ⟨rfl, rfl, rfl, rfl⟩ s.judge_fst
  case pack f _ _ => exact .sent f rfl rfl rfl rfl rfl
  case decode1 => exact .parse pop _ (.inr (.inr (.inl rfl)))
  case decode1Complete hx =>
    exact .counted (.inr (.inl rfl)) (pop.trans (State.parse_sameSession hx)) (State.verifyCompleted_fst _)
  case process => exact .parse pop _ (.inr (.inr (.inr rfl)))
  case processInvalid hx _ =>
    exact .counted (.inr (.inr rfl)) (pop.trans (State.parse_sameSession hx)) (State.verifyCompleted_fst _)
  case processValid u _ _ _ hx =>
    have h := pop.trans (State.parse_sameSession (congrArg Prod.snd hx))
    rw [hx] at h
    obtain ⟨-, htx, he, hv⟩ := h
    exact .valid (.inr (.inr rfl)) htx rfl he (congrArg (· + 1) hv)
  all_goals exact .none ⟨rfl, rfl, rfl, rfl⟩

/-- Settles O52: in each of the four moves the counters do what is listed. -/
theorem sessionCountersMoveOnlyAsListed : Obligations.SessionCountersMoveOnlyAsListed := by
  unfold Obligations.SessionCountersMoveOnlyAsListed
  intro i s t h hi
  obtain ⟨u, p, c, k, rfl⟩ := (exec_effect h).change
  cases k.counters hi with
  | none h =>
    obtain ⟨hrx, htx, he, hv⟩ := h
    exact ⟨fun _ => htx, .inl htx, fun _ => ⟨hv, hrx⟩, .inl ⟨hv, hrx⟩, .inl he⟩
  | sent f hf htx hrx he hv =>
    exact ⟨fun h => absurd hf (h f), .inr htx, fun _ => ⟨hv, hrx⟩, .inl ⟨hv, hrx⟩, .inl he⟩
  | valid hw htx hrx he hv =>
    refine ⟨fun _ => htx, .inl htx, ?_, .inr ⟨hv, hrx, he⟩, .inl he⟩
    rintro ⟨h1, h2, h3⟩
    exact absurd hw (by simp [h1, h2, h3])
  | error hw htx hrx he hv =>
    exact ⟨fun _ => htx, .inl htx, fun _ => ⟨hv, hrx⟩, .inl ⟨hv, hrx⟩, .inr ⟨he, hv, hw⟩⟩

end Sys2Proof.Machine
end

section
/-! PROOFS. Which port moves and what it runs (20_memory.md R58), and what becomes of beats sent too early (20_memory.md
R60, 70_reset_and_hazards.md R253, R254, R258). -/

namespace Sys2Proof.Machine

/-! ### The beats of a port -/

@[simp] theorem opOf_beatOf (op a : Byte) (imm : Half) : opOf (beatOf op a imm) = op :=
  (BitVec.extractLsb'_append_eq_of_le (w := 16) (start := 24) (by decide)).trans BitVec.extractLsb'_append_eq_left

@[simp] theorem aOf_beatOf (op a : Byte) (imm : Half) : aOf (beatOf op a imm) = a :=
  (BitVec.extractLsb'_append_eq_of_le (w := 16) (start := 16) (by decide)).trans BitVec.extractLsb'_append_eq_right

@[simp] theorem immOf_beatOf (op a : Byte) (imm : Half) : immOf (beatOf op a imm) = imm :=
  BitVec.extractLsb'_append_eq_right

theorem decodeHeader_push (x : Byte) (ps : List Byte) : decodeHeader (headerOf (.push x)) ps = .ok (.push x) := by
  simp [decodeHeader, headerOf, decodeFields, fmtA]

/-- PUSH is its header beat alone (30_encoding.md R77, R79). -/
theorem decode_push (x : Byte) (rest : List Beat) :
    decode (headerOf (.push x) :: rest) = .ok (.push x) rest := by
  have hn : payloadBeats (headerOf (.push x)) = 0 := by simp [payloadBeats, headerOf]
  simp [decode, hn, decodeHeader_push]

/-- Beats behind a whole command do not change which command it is (30_encoding.md R77). -/
theorem decode_append {bs rest : List Beat} {i : Instr} (cs : List Beat) (h : decode bs = .ok i rest) :
    decode (bs ++ cs) = .ok i (rest ++ cs) := by
  cases bs with
  | nil => cases h
  | cons cw bs =>
    rw [List.cons_append, decode]
    rw [decode] at h
    split at h
    · cases h
    · rename_i hlen
      have hle : payloadBeats cw ≤ bs.length := Nat.le_of_not_lt hlen
      have hlen' : ¬ (bs ++ cs).length < payloadBeats cw := by rw [List.length_append]; omega
      rw [if_neg hlen', List.take_append_of_le_length hle, List.drop_append_of_le_length hle]
      split at h <;> cases h
      rfl

/-! ### When a port has something to do, and when too much was sent on it -/

section

variable {x : PortState}

theorem PortState.ready_of_busy {r : Running} (h : x.busy = some r) : x.ready = true := by
  unfold PortState.ready
  rw [h]

theorem PortState.ready_of_decode {i : Instr} {rest : List Beat} (hb : x.busy = none)
    (hd : decode x.inbox = .ok i rest) : x.ready = true := by
  unfold PortState.ready
  rw [hb, hd]

theorem PortState.decode_of_not_ready (h : x.ready = false) : decode x.inbox = .short := by
  unfold PortState.ready at h
  split at h
  · cases h
  · split at h
    · assumption
    all_goals cases h

theorem PortState.free_iff : x.free = true ↔ x.busy = none ∧ x.inbox = [] := by
  simp [PortState.free]

theorem PortState.overrun_of_free (h : x.free = true) : x.overrun = false :=
  PortState.overrun_of_inbox_nil (PortState.free_iff.1 h).2

theorem PortState.overrun_of_busy (hb : x.busy ≠ none) (hi : x.inbox ≠ []) : x.overrun = true := by
  obtain ⟨r, hr⟩ := Option.ne_none_iff_exists'.1 hb
  unfold PortState.overrun
  rw [hr]
  simpa using hi

theorem PortState.overrun_of_decode {i : Instr} {rest : List Beat} (hb : x.busy = none)
    (hd : decode x.inbox = .ok i rest) : x.overrun = !rest.isEmpty := by
  unfold PortState.overrun
  rw [hb, hd]

end

/-! ### The premise of FLUSH (70_reset_and_hazards.md R254) -/

section

variable {s : State}

theorem State.producerQuiet_of_pushall {ps : List Byte} {n : Nat} (h : s.portP.busy = some (.pushall ps n)) :
    s.producerQuiet = false := by
  unfold State.producerQuiet
  rw [h]

theorem State.producerQuiet_of_push_sent {x : Byte} (hb : s.portP.busy = none)
    (hi : s.portP.inbox = [headerOf (.push x)]) : s.producerQuiet = false := by
  unfold State.producerQuiet
  rw [hb, hi]
  simp [pushPathIn, isPushPath, decodeHeader_push]

theorem State.producerQuiet_of_free (h : s.portP.free = true) : s.producerQuiet = true := by
  obtain ⟨hb, hi⟩ := PortState.free_iff.1 h
  unfold State.producerQuiet
  rw [hb, hi]
  rfl

theorem State.flushExposed_of_flush {rest : List Beat} (hd : decode s.portC.inbox = .ok .flush rest) :
    s.flushExposed = !s.producerQuiet := by
  unfold State.flushExposed
  rw [hd]

theorem State.flushExposed_of_short (hd : decode s.portC.inbox = .short) : s.flushExposed = false := by
  unfold State.flushExposed
  rw [hd]

theorem State.flushExposed_of_quiet (h : s.producerQuiet = true) : s.flushExposed = false := by
  unfold State.flushExposed
  rw [h]
  split <;> rfl

/-- With nothing to do on either port nothing was sent too early. -/
theorem State.orderly_of_not_ready (hp : s.portP.ready = false) (hc : s.portC.ready = false) : s.orderly = true :=
  s.orderly_iff.2 ⟨PortState.overrun_of_not_ready hp, PortState.overrun_of_not_ready hc,
    State.flushExposed_of_short (PortState.decode_of_not_ready hc)⟩

/-! ### What arbitration selects -/

theorem State.arbitrate_of_only_ready {q : Port} (hq : (s.port q).ready = true)
    (ho : (s.port q.other).ready = false) : s.arbitrate = some (s.select q) := by
  cases q <;> simp only [State.port, Port.other] at hq ho <;> simp [State.arbitrate, hq, ho]

theorem State.arbitrate_of_granted {q : Port} {gs : List Port} (hp : s.portP.ready = true)
    (hc : s.portC.ready = true) (hg : s.grants = q :: gs) :
    s.arbitrate = some { s with cur := q, grants := gs } := by
  simp [State.arbitrate, hp, hc, hg, State.select]

theorem State.arbitrate_of_no_grant (hp : s.portP.ready = true) (hc : s.portC.ready = true) (hg : s.grants = []) :
    ∃ q, s.arbitrate = some { s with cur := q, draws := s.draws + 1 } := by
  refine ⟨if Config.arbiterPicksP s.draws then .p else .c, ?_⟩
  simp [State.arbitrate, hp, hc, hg, State.select]

theorem State.arbitrate_of_not_ready (hp : s.portP.ready = false) (hc : s.portC.ready = false) :
    s.arbitrate = none := by
  simp [State.arbitrate, hp, hc]

/-! ### What a step does -/

theorem step_of_arbitrate {t : State} (hr : s.resetReq = false) (ho : s.orderly = true)
    (h : s.arbitrate = some t) : step s = t.runCurrent := by
  rw [step, State.advance_of_orderly hr ho, h]

theorem step_of_not_ready (hr : s.resetReq = false) (hp : s.portP.ready = false) (hc : s.portC.ready = false) :
    step s = .next s := by
  rw [step, State.advance_of_orderly hr (State.orderly_of_not_ready hp hc), State.arbitrate_of_not_ready hp hc]

theorem step_of_overrun {q : Port} (hr : s.resetReq = false) (h : (s.port q).overrun = true) :
    step s = .fault .sentTooEarly := by
  have hany : (s.portP.overrun || s.portC.overrun) = true := by cases q <;> simp_all [State.port]
  simp [step, State.advance, hr, hany]

theorem step_of_flushExposed (hr : s.resetReq = false) (hp : s.portP.overrun = false)
    (hc : s.portC.overrun = false) (h : s.flushExposed = true) : step s = .fault .flushNotQuiescent := by
  simp [step, State.advance, hr, hp, hc, h]

theorem State.runCurrent_of_running {r : Running} (h : s.running = some r) : s.runCurrent = exec r.instr s := by
  unfold State.runCurrent
  rw [h]

theorem State.runCurrent_of_decode {i : Instr} {rest : List Beat} (h : s.running = none)
    (hd : decode (s.port s.cur).inbox = .ok i rest) : s.runCurrent = exec i (s.setInbox rest) := by
  unfold State.runCurrent
  rw [h, hd]

/-- A port that has something to do moves: alone, or where the next grant is its (20_memory.md R58). -/
theorem step_of_ready {q : Port} (hr : s.resetReq = false) (ho : s.orderly = true) (hq : (s.port q).ready = true) :
    ((s.port q.other).ready = false → step s = State.runCurrent { s with cur := q }) ∧
    (∀ gs, (s.port q.other).ready = true → s.grants = q :: gs →
      step s = State.runCurrent { s with cur := q, grants := gs }) := by
  refine ⟨fun h => step_of_arbitrate hr ho (State.arbitrate_of_only_ready hq h), fun gs h hg => ?_⟩
  cases q
  · exact step_of_arbitrate hr ho (State.arbitrate_of_granted hq h hg)
  · exact step_of_arbitrate hr ho (State.arbitrate_of_granted h hq hg)

end

/-- Settles O6: the selected port's next atomic part is that of its bulk command, or of the one command it was sent. -/
theorem stepRunsTheDecodedCommand : Obligations.StepRunsTheDecodedCommand := by
  unfold Obligations.StepRunsTheDecodedCommand
  intro s q hr ho
  constructor
  · intro i rest hb hd
    obtain rfl := PortState.rest_nil (State.orderly_port ho q) hb hd
    obtain ⟨alone, granted⟩ := step_of_ready hr ho (PortState.ready_of_decode hb hd)
    exact ⟨rfl, fun h => (alone h).trans (State.runCurrent_of_decode hb hd),
      fun gs h hg => (granted gs h hg).trans (State.runCurrent_of_decode hb hd)⟩
  · intro r hb
    obtain ⟨alone, granted⟩ := step_of_ready hr ho (PortState.ready_of_busy hb)
    exact ⟨fun h => (alone h).trans (State.runCurrent_of_running hb),
      fun gs h hg => (granted gs h hg).trans (State.runCurrent_of_running hb)⟩

/-- Settles O8: a grant or a free value selects the port; with neither port ready arbitration selects none. -/
theorem arbitrationAdmitsBothOrders : Obligations.ArbitrationAdmitsBothOrders := by
  unfold Obligations.ArbitrationAdmitsBothOrders
  intro s hr
  refine ⟨fun ho hp hc => ⟨fun q gs hg => ?_, fun hg => ?_⟩, step_of_not_ready hr⟩
  · exact step_of_arbitrate hr ho (State.arbitrate_of_granted hp hc hg)
  · obtain ⟨q, ha⟩ := State.arbitrate_of_no_grant hp hc hg
    have hstep := step_of_arbitrate hr ho ha
    cases q
    · exact .inl hstep
    · exact .inr hstep

/-! ### Sending -/

@[simp] theorem State.busy_send (s : State) (q : Port) (bs : List Beat) (r : Port) :
    ((s.send q bs).port r).busy = (s.port r).busy := by
  cases q <;> cases r <;> rfl

@[simp] theorem State.inbox_send_self (s : State) (q : Port) (bs : List Beat) :
    ((s.send q bs).port q).inbox = (s.port q).inbox ++ bs := by simp [State.send]

section

variable {s : State} {q : Port} {bs : List Beat}

/-- Beats sent behind a bulk command in execution overrun the port. -/
theorem State.overrun_send_of_busy (hb : (s.port q).busy ≠ none) (hbs : bs ≠ []) :
    ((s.send q bs).port q).overrun = true :=
  PortState.overrun_of_busy (by rwa [s.busy_send]) (by simp [hbs])

/-- Beats sent behind a whole command overrun the port. -/
theorem State.overrun_send_of_decode {i : Instr} (hb : (s.port q).busy = none)
    (hd : decode (s.port q).inbox = .ok i []) (hbs : bs ≠ []) : ((s.send q bs).port q).overrun = true := by
  have hd' : decode ((s.send q bs).port q).inbox = .ok i bs := by
    rw [s.inbox_send_self]; exact decode_append bs hd
  rw [PortState.overrun_of_decode (by rwa [s.busy_send]) hd']
  simpa using hbs

/-- One command sent on a free port does not overrun it. -/
theorem State.overrun_send_of_free {i : Instr} (hf : (s.port q).free = true) (hd : decode bs = .ok i []) :
    ((s.send q bs).port q).overrun = false := by
  obtain ⟨hb, hi⟩ := PortState.free_iff.1 hf
  have hd' : decode ((s.send q bs).port q).inbox = .ok i [] := by rw [s.inbox_send_self, hi]; exact hd
  rw [PortState.overrun_of_decode (by rwa [s.busy_send]) hd']
  rfl

theorem State.idle_iff : s.idle = true ↔ s.portP.free = true ∧ s.portC.free = true := by simp [State.idle]

/-- One command sent while none is in flight is in order, FLUSH among them (70_reset_and_hazards.md R254). -/
theorem State.orderly_send_of_idle {i : Instr} (h : s.idle = true) (hd : decode bs = .ok i []) :
    (s.send q bs).orderly = true := by
  obtain ⟨hp, hc⟩ := State.idle_iff.1 h
  rw [State.orderly_iff]
  cases q with
  | p =>
    have hshort : decode s.portC.inbox = .short := by rw [(PortState.free_iff.1 hc).2]; rfl
    exact ⟨State.overrun_send_of_free (q := .p) hp hd, PortState.overrun_of_free hc, State.flushExposed_of_short hshort⟩
  | c =>
    exact ⟨PortState.overrun_of_free hp, State.overrun_send_of_free (q := .c) hc hd,
      State.flushExposed_of_quiet (State.producerQuiet_of_free hp)⟩

/-- A FLUSH that waits alone on port C faults where its premise does not hold (70_reset_and_hazards.md R254). -/
theorem step_of_flush_waits (hr : s.resetReq = false) (hb : s.portC.busy = none)
    (hd : decode s.portC.inbox = .ok .flush []) (hp : s.portP.overrun = false) (hq : s.producerQuiet = false) :
    step s = .fault .flushNotQuiescent := by
  refine step_of_flushExposed hr hp (PortState.overrun_of_decode hb hd) ?_
  rw [State.flushExposed_of_flush hd, hq]
  rfl

end

/-- Settles O7: beats behind a command overrun the port, and a FLUSH waits without its premise; one command sent while
none is in flight does neither. -/
theorem sendingTooEarlyFaults : Obligations.SendingTooEarlyFaults := by
  unfold Obligations.SendingTooEarlyFaults
  intro s q b bs hr
  have hne : b :: bs ≠ [] := List.cons_ne_nil b bs
  refine ⟨fun hb => ?_, fun i hb hd => ?_, fun hb hd => ⟨fun ps n hrun hin => ?_, fun x hidle hin => ?_⟩,
    fun i h hd => State.orderly_send_of_idle h hd⟩
  · exact step_of_overrun hr (State.overrun_send_of_busy hb hne)
  · exact step_of_overrun hr (State.overrun_send_of_decode hb hd hne)
  · exact step_of_flush_waits hr hb hd (PortState.overrun_of_inbox_nil hin) (State.producerQuiet_of_pushall hrun)
  · have hpush : decode s.portP.inbox = .ok (.push x) [] := by rw [hin]; exact decode_push x []
    exact step_of_flush_waits hr hb hd (PortState.overrun_of_decode hidle hpush)
      (State.producerQuiet_of_push_sent hidle hin)

end Sys2Proof.Machine
end

section
/-! PROOFS. The decoder and the encoder agree (30_encoding.md R73, R77, R83), and which header beats are no command
(30_encoding.md R72, R79, R81). -/

namespace Sys2Proof.Laws.BeatLength

theorem statement (i : Instr) : Statement i := by
  cases i
  exacts [push _, pop, peek, pushall _, popall _, used, free, empty, full, flush, crcinit, crcseed _, crcacc _, crcrd,
    crc16 _, step _, verify, pack _, txb _, clrcnt, decode1, process, rdf _, wrf _ _, rdv _, wrv _ _, rds _]

end Sys2Proof.Laws.BeatLength

namespace Sys2Proof.Machine

/-! ### The formats (30_encoding.md R72) -/

section

variable {a : Byte} {imm : Half} {i j : Instr}

theorem fmtZ_ok_iff : fmtZ a imm j = .ok i ↔ (a = 0 ∧ imm = 0) ∧ j = i := ite_ok_iff

theorem fmtA_ok_iff {mk : Byte → Instr} : fmtA a imm mk = .ok i ↔ imm = 0 ∧ mk a = i := ite_ok_iff

theorem fmtI_ok_iff {mk : Half → Instr} : fmtI a imm mk = .ok i ↔ a = 0 ∧ mk imm = i := ite_ok_iff

theorem fmtV_ok_iff {mk : List Byte → Instr} {ps : List Byte} : fmtV a ps mk = .ok i ↔ a = 0 ∧ mk ps = i := ite_ok_iff

theorem fmtWrf_ok_iff :
    fmtWrf a imm = .ok i ↔ imm.extractLsb' 8 8 = 0 ∧ .wrf a (imm.extractLsb' 0 8) = i := ite_ok_iff

end

/-- A 16-bit value whose upper byte is zero is its lower byte extended. -/
theorem setWidth_lowByte {imm : Half} (h : imm.extractLsb' 8 8 = 0) : (imm.extractLsb' 0 8).setWidth 16 = imm := by
  have hhigh : imm.toNat >>> 8 % 2 ^ 8 = 0 := congrArg BitVec.toNat h
  have hlt := imm.isLt
  apply BitVec.eq_of_toNat_eq
  simp only [BitVec.toNat_setWidth, BitVec.extractLsb'_toNat, Nat.shiftRight_eq_div_pow] at hhigh ⊢
  omega

theorem lowByte_setWidth (v : Byte) : (v.setWidth 16).extractLsb' 0 8 = v :=
  (BitVec.extractLsb'_setWidth_of_le (by decide)).trans BitVec.extractLsb'_eq_self

theorem highByte_setWidth (v : Byte) : (v.setWidth 16).extractLsb' 8 8 = 0 := by
  ext k hk
  simp

/-- WRF's value byte is read back as it was written (30_encoding.md R72, 45_register_access.md R201). -/
theorem fmtWrf_setWidth (a v : Byte) : fmtWrf a (v.setWidth 16) = .ok (.wrf a v) :=
  fmtWrf_ok_iff.2 ⟨highByte_setWidth v, by rw [lowByte_setWidth]⟩

/-! ### Decoding what was encoded -/

/-- The opcode map reads back every header beat the encoder writes (30_encoding.md R79, R83). -/
theorem decodeHeader_headerOf (i : Instr) : decodeHeader (headerOf i) i.payload = .ok i := by
  cases i <;> simp only [decodeHeader, headerOf, opOf_beatOf, aOf_beatOf, immOf_beatOf]
  case wrf a v => exact fmtWrf_setWidth a v
  all_goals rfl

/-- The header beat announces the payload that follows it (30_encoding.md R77). -/
theorem payloadBeats_headerOf {i : Instr} (hw : i.wf = true) : payloadBeats (headerOf i) = i.payload.length := by
  have h := Laws.BeatLength.statement i hw
  rw [encode_length] at h
  omega

section

variable {cw : Beat} {bs rest : List Beat}

/-- A port's beats begin with a command where the payload its header beat announces is there and the two decode
(30_encoding.md R77, R82). -/
theorem decode_ok_iff {i : Instr} : decode (cw :: bs) = .ok i rest ↔ payloadBeats cw ≤ bs.length ∧
    decodeHeader cw ((bs.take (payloadBeats cw)).map payloadByte) = .ok i ∧ bs.drop (payloadBeats cw) = rest := by
  rw [decode]
  split
  · exact ⟨nofun, fun h => absurd h.1 (by omega)⟩
  · cases decodeHeader cw ((bs.take (payloadBeats cw)).map payloadByte) <;> simp [Nat.le_of_not_lt ‹_›]

/-- A header beat that does not decode is refused once the payload it announces is there (30_encoding.md R77, R82). -/
theorem decode_illegal_iff {e : DecodeError} : decode (cw :: bs) = .illegal e rest ↔ payloadBeats cw ≤ bs.length ∧
    decodeHeader cw ((bs.take (payloadBeats cw)).map payloadByte) = .error e ∧ bs.drop (payloadBeats cw) = rest := by
  rw [decode]
  split
  · exact ⟨nofun, fun h => absurd h.1 (by omega)⟩
  · cases decodeHeader cw ((bs.take (payloadBeats cw)).map payloadByte) <;> simp [Nat.le_of_not_lt ‹_›]

end

/-- Settles O10: the header beat announces the payload and is read back, and so is every payload byte. -/
theorem decodeInvertsEncode : Obligations.DecodeInvertsEncode := by
  unfold Obligations.DecodeInvertsEncode
  intro i rest hw
  rw [encode, List.cons_append, decode_ok_iff, payloadBeats_headerOf hw]
  simp [decodeHeader_headerOf]

/-! ### Encoding what was decoded -/

theorem byte_eq_of_toNat {op : Byte} {n : Nat} (h : op.toNat = n) : op = BitVec.ofNat 8 n := by
  rw [← h, BitVec.ofNat_toNat, BitVec.setWidth_eq]

theorem payloadBeats_beatOf (op a : Byte) (imm : Half) :
    payloadBeats (beatOf op a imm) = if op = 0x13 ∨ op = 0x24 then imm.toNat else 0 := by
  rw [payloadBeats, opOf_beatOf, immOf_beatOf]

/-- What the opcode map reads as a command is the command whose header beat and payload those are (30_encoding.md R73). -/
theorem decodeFields_spelling {op a : Byte} {imm : Half} {ps : List Byte} {i : Instr}
    (h : decodeFields op a imm ps = .ok i) (hlen : ps.length = payloadBeats (beatOf op a imm)) :
    headerOf i = beatOf op a imm ∧ i.payload = ps := by
  rw [payloadBeats_beatOf] at hlen
  unfold decodeFields at h
  split at h
  case h_28 => cases h
  all_goals
    rename_i hop
    obtain rfl := byte_eq_of_toNat hop
    simp only [fmtZ_ok_iff, fmtA_ok_iff, fmtI_ok_iff, fmtV_ok_iff, fmtWrf_ok_iff, Except.ok.injEq] at h
  case h_4 | h_15 => -- PUSHALL and CRC16, whose `imm` counts the payload
    obtain ⟨rfl, rfl⟩ := h
    have himm : BitVec.ofNat 16 ps.length = imm := by
      rw [hlen, if_pos (by decide), BitVec.ofNat_toNat, BitVec.setWidth_eq]
    exact ⟨congrArg (beatOf _ 0) himm, rfl⟩
  all_goals obtain rfl : ps = [] := List.length_eq_zero_iff.1 hlen
  case h_24 => -- WRF, whose value is the lower byte of `imm`
    obtain ⟨hhigh, rfl⟩ := h
    exact ⟨congrArg (beatOf _ a) (setWidth_lowByte hhigh), rfl⟩
  case h_26 => -- WRV, which has no must-be-zero field
    subst h
    exact ⟨rfl, rfl⟩
  all_goals
    obtain ⟨hzero, rfl⟩ := h
    simp [headerOf, Instr.payload, hzero]

theorem decodeHeader_spelling {cw : Beat} {ps : List Byte} {i : Instr} (h : decodeHeader cw ps = .ok i)
    (hlen : ps.length = payloadBeats cw) : headerOf i = cw ∧ i.payload = ps := by
  rw [← beatOf_fields cw] at hlen ⊢
  exact decodeFields_spelling h hlen

/-- Settles O11: the beats taken are the payload the header beat announces. -/
theorem encodeInvertsDecode : Obligations.EncodeInvertsDecode := by
  unfold Obligations.EncodeInvertsDecode
  intro cw bs rest i h
  obtain ⟨hlen, hd, rfl⟩ := decode_ok_iff.1 h
  obtain ⟨hhead, hpay⟩ := decodeHeader_spelling hd (by simp [hlen])
  exact ⟨wf_of_decode h, hhead, _, (List.take_append_drop _ bs).symm, hpay⟩

/-! ### Which header beats are no command -/

theorem opcodeRows_unique : ∀ x ∈ opcodeRows, ∀ y ∈ opcodeRows, x.1 = y.1 → x = y := by decide

/-- A row of the opcode map gives a command where the must-be-zero fields of its format are zero, and a refusal where
they are not (30_encoding.md R72, R79). -/
theorem decodeFields_of_row {row : Byte × Format} (h : row ∈ opcodeRows) (a : Byte) (imm : Half) (ps : List Byte) :
    ∃ i, decodeFields row.1 a imm ps =
      if fieldsZero row.2 (beatOf row.1 a imm) then .ok i else .error .mustBeZero := by
  fin_cases h
  pick_goal 26 -- WRV, the one row without such fields
  · exact ⟨_, rfl⟩
  all_goals exact ⟨_, if_congr (by simp [fieldsZero]) rfl rfl⟩

/-- An opcode outside the map is no command (30_encoding.md R79, R82). -/
theorem decodeFields_of_no_row {op : Byte} (h : ∀ row ∈ opcodeRows, row.1 ≠ op) (a : Byte) (imm : Half)
    (ps : List Byte) : decodeFields op a imm ps = .error .unknownOpcode := by
  unfold decodeFields
  split
  case h_28 => rfl
  all_goals
    rename_i hop
    obtain rfl := byte_eq_of_toNat hop
    exact absurd h (by decide)

/-- Settles O13: an opcode has one row at most, and the fields its format wants zero decide. -/
theorem headerBeatsAreClassified : Obligations.HeaderBeatsAreClassified := by
  unfold Obligations.HeaderBeatsAreClassified
  intro cw ps
  rw [decodeHeader]
  by_cases hrow : ∀ row ∈ opcodeRows, row.1 ≠ opOf cw
  · have hno (v : Bool) : ¬ ∃ row ∈ opcodeRows, row.1 = opOf cw ∧ fieldsZero row.2 cw = v :=
      fun ⟨row, hmem, hop, _⟩ => hrow row hmem hop
    rw [decodeFields_of_no_row hrow]
    exact ⟨⟨fun _ => hrow, fun _ => rfl⟩, ⟨nofun, fun h => absurd h (hno _)⟩, ⟨nofun, fun h => absurd h (hno _)⟩⟩
  · obtain ⟨row, hmem, hop⟩ : ∃ row ∈ opcodeRows, row.1 = opOf cw := by simpa using hrow
    obtain ⟨i, hi⟩ := decodeFields_of_row hmem (aOf cw) (immOf cw) ps
    rw [hop, beatOf_fields] at hi
    have hzero (v : Bool) :
        (∃ r ∈ opcodeRows, r.1 = opOf cw ∧ fieldsZero r.2 cw = v) ↔ fieldsZero row.2 cw = v := by
      refine ⟨?_, fun h => ⟨row, hmem, hop, h⟩⟩
      rintro ⟨r, hr, hrop, h⟩
      rwa [opcodeRows_unique row hmem r hr (hop.trans hrop.symm)]
    rw [hi, iff_false_intro hrow, hzero, hzero]
    cases fieldsZero row.2 cw <;> simp

/-- Settles O12, by running the decoder. -/
theorem writtenOutWordsDecode : Obligations.WrittenOutWordsDecode := by
  unfold Obligations.WrittenOutWordsDecode
  decide

end Sys2Proof.Machine
end

section
/-! PROOFS. ILLEGAL answers: a command is refused with reason 3 exactly off its port, a refusal changes nothing, and a
beat that is no command is refused (30_encoding.md R77, R80, R81, 60_exceptions.md R227). -/

namespace Sys2Proof.Machine

/-! ### Commands not legal on their port -/

/-- Off its port every command is refused and does nothing else (30_encoding.md R80). -/
theorem exec_of_not_legalOn {i : Instr} {s : State} (h : legalOn s.cur i = false) :
    exec i s = .next (s.illegal .wrongPort) := by
  cases hc : s.cur <;> rw [hc] at h
  · cases i
    case push | pushall | used | free | empty | full | rds => cases h
    case flush => rw [exec, execFlush, hc]
    all_goals exact congrArg _ (State.onlyC_p hc _)
  · cases i
    case push | pushall => exact congrArg _ (State.onlyP_c hc _)
    all_goals cases h

/-! ### Commands legal on their port -/

/-- What a command that is legal on its port answers: it is refused for another reason, and that is all it does, or no
word of its answer is ILLEGAL. -/
inductive Reply (s t : State) : Prop
  | refusal (r : Reason) (hr : r ≠ .wrongPort) (ht : t = s.illegal r)
  | regular (rs : List Resp) (hs : ∀ x ∈ rs, x.st ≠ .illegal) (ha : Answers s t rs)

/-- The current port is that of `s`, and no port has been answered since. -/
def Unanswered (s u : State) : Prop := u.cur = s.cur ∧ ∀ q, (u.port q).out = (s.port q).out

section

variable {s u : State}

theorem Unanswered.of_ports (hc : u.cur = s.cur) (hp : u.portP = s.portP) (hC : u.portC = s.portC) :
    Unanswered s u := ⟨hc, fun q => by cases q; exacts [congrArg _ hp, congrArg _ hC]⟩

theorem SameFixed.unanswered (h : SameFixed s u) : Unanswered s u := .of_ports h.cur h.portP h.portC

theorem Unanswered.trans {t : State} (h : Unanswered s u) (k : Unanswered u t) : Unanswered s t :=
  ⟨k.1.trans h.1, fun q => (k.2 q).trans (h.2 q)⟩

theorem Unanswered.setRunning (h : Unanswered s u) (r : Option Running) : Unanswered s (u.setRunning r) :=
  ⟨h.1, fun q => (u.out_setRunning r q).trans (h.2 q)⟩

theorem Reply.silent (h : Unanswered s u) : Reply s u :=
  .regular [] nofun ⟨by rw [h.2, List.append_nil], h.2 _⟩

theorem Reply.refused {r : Reason} (hr : r ≠ .wrongPort := by decide) : Reply s (s.illegal r) := .refusal r hr rfl

theorem Reply.respondAll (h : Unanswered s u) {rs : List Resp} (hs : ∀ x ∈ rs, x.st ≠ .illegal) :
    Reply s (u.respondAll rs) :=
  .regular rs hs (Answers.of_ports (u.respondAll_onlyAnswers rs).1 h.1 h.2)

theorem Reply.respond (h : Unanswered s u) {st : Status} {d : Word} (hst : st ≠ .illegal := by decide) :
    Reply s (u.respond st d) := .respondAll h fun x hx => by rw [List.mem_singleton.1 hx]; exact hst

/-- An answer after a change that leaves the ports alone. -/
theorem Reply.respond_of_ports {st : Status} {d : Word} (hc : u.cur = s.cur := by rfl)
    (hp : u.portP = s.portP := by rfl) (hC : u.portC = s.portC := by rfl) (hst : st ≠ .illegal := by decide) :
    Reply s (u.respond st d) := .respond (.of_ports hc hp hC) hst

theorem Reply.onlyC {k : State → State} (hc : s.cur = .c) (h : Reply s (k s)) : Reply s (s.onlyC k) := by
  rwa [State.onlyC_c hc]

theorem Reply.onlyP {k : State → State} (hc : s.cur = .p) (h : Reply s (k s)) : Reply s (s.onlyP k) := by
  rwa [State.onlyP_p hc]

theorem Reply.transmitGuard {k : State → State} (h : Reply s (k s)) : Reply s (s.transmitGuard k) := by
  rcases s.transmitGuard_cases k with ⟨-, e⟩ | ⟨-, -, e⟩ | ⟨-, -, e⟩ <;> rw [e]
  · exact .refused
  · exact .refused
  · exact h

end

/-- POPALL's words are all OK (30_encoding.md R78). -/
theorem popallWords_ne_illegal {out : List Byte} : ∀ x ∈ popallWords out, x.st ≠ .illegal := by
  simp [popallWords]

/-- The parser's step on a byte taken from the ring answers nothing. -/
theorem State.parse_advanceHead_unanswered (s : State) (b : Byte) : Unanswered s (s.advanceHead.parse b).1 :=
  (s.advanceHead_fixed.trans (State.parse_outside _ b).fixed).unanswered

theorem exec_decode1_reply {s t : State} (hc : s.cur = .c) (h : exec .decode1 s = .next t) : Reply s t := by
  injection h with h
  subst h
  refine .onlyC hc ?_
  rcases s.popByte_cases with ⟨-, e⟩ | ⟨-, e⟩ <;> rw [e]
  · exact .respond_of_ports
  · have parsed := s.parse_advanceHead_unanswered (s.rbRead (s.phys s.head))
    dsimp only
    revert parsed
    rcases s.advanceHead.parse (s.rbRead (s.phys s.head)) with ⟨u, _ | _ | c⟩ <;> intro parsed
    · exact .respond parsed
    · have verified := parsed.trans u.verifyCompleted_fixed.unanswered
      dsimp only
      revert verified
      rcases u.verifyCompleted with ⟨v, _ | _⟩ <;> exact fun verified => .respond verified
    · exact .respond parsed

theorem exec_process_reply {s t : State} (hc : s.cur = .c) (h : exec .process s = .next t) : Reply s t := by
  injection h with h
  subst h
  refine .onlyC hc ?_
  rcases s.popByte_cases with ⟨-, e⟩ | ⟨-, e⟩ <;> rw [e]
  · exact .respond (.setRunning (.of_ports rfl rfl rfl) none)
  · have parsed := s.parse_advanceHead_unanswered (s.rbRead (s.phys s.head))
    dsimp only
    revert parsed
    rcases s.advanceHead.parse (s.rbRead (s.phys s.head)) with ⟨u, _ | _ | c⟩ <;> intro parsed
    · exact .silent (parsed.setRunning _)
    · have verified := parsed.trans u.verifyCompleted_fixed.unanswered
      dsimp only
      revert verified
      rcases u.verifyCompleted with ⟨v, _ | _⟩ <;> intro verified
      · have emitted : Unanswered v (v.emitHandle v.snapshot) := .of_ports rfl rfl rfl
        exact .silent ((verified.trans emitted).setRunning _)
      · exact .silent (verified.setRunning _)
    · exact .silent (parsed.setRunning _)

/-- On its port a command answers ILLEGAL only where it is refused. -/
theorem exec_reply {i : Instr} {s t : State} (hl : legalOn s.cur i = true) (h : exec i s = .next t) : Reply s t := by
  have same : Unanswered s s := .of_ports rfl rfl rfl
  cases i
  case flush =>
    rcases execFlush_cases s with ⟨hc, -⟩ | ⟨-, -, e⟩ | ⟨-, -, e⟩
    · rw [hc] at hl; cases hl
    · rw [e] at h; cases h
      exact .respond_of_ports
    · rw [e] at h; cases h
  case decode1 => exact exec_decode1_reply (of_decide_eq_true hl) h
  case process => exact exec_process_reply (of_decide_eq_true hl) h
  all_goals injection h with h; subst h
  case used | free | empty | full => exact .respond_of_ports
  case rds a =>
    cases sregOf a
    · exact .refused
    · exact .respond_of_ports
  all_goals have hc := of_decide_eq_true hl
  case push b =>
    refine .onlyP hc ?_
    split <;> exact .respond_of_ports
  case pushall ps =>
    refine .onlyP hc ?_
    cases ps[s.pushallPosition]? with
    | none => exact .respond (same.setRunning none)
    | some b =>
      dsimp only
      split
      · exact .respond (same.setRunning none)
      · exact .silent (.setRunning (.of_ports rfl rfl rfl) _)
  all_goals refine .onlyC hc ?_
  case pop | peek =>
    rcases s.popByte_cases with ⟨-, e⟩ | ⟨-, e⟩ <;> rw [e] <;> exact .respond_of_ports
  case popall m =>
    split
    · exact .respondAll (same.setRunning none) popallWords_ne_illegal
    · rcases s.popByte_cases with ⟨-, e⟩ | ⟨-, e⟩ <;> rw [e]
      · exact .respondAll (same.setRunning none) popallWords_ne_illegal
      · exact .silent (.setRunning (.of_ports rfl rfl rfl) _)
  case crcinit | crcseed | crcacc | crcrd | clrcnt => exact .respond_of_ports
  case crc16 ps =>
    cases ps[s.crc16Position.1]?
    · exact .respond (same.setRunning none)
    · exact .silent (same.setRunning _)
  case step b =>
    have parsed := (s.parse_outside b).fixed.unanswered
    revert parsed
    rcases s.parse b with ⟨u, _ | _ | c⟩ <;> exact fun parsed => .respond parsed
  case verify =>
    rcases s.verify_cases with ⟨e, -⟩ | ⟨e, -⟩ <;> rw [e]
    · have judged := s.judge_fixed.unanswered
      revert judged
      rcases s.judge with ⟨u, _ | _⟩ <;> exact fun judged => .respond judged
    · exact .refused
  case pack f => exact .transmitGuard .respond_of_ports
  case txb a =>
    refine .transmitGuard ?_
    split
    · exact .respond_of_ports
    · exact .refused
  case rdf a =>
    cases fregOf a
    · exact .refused
    · exact .respond_of_ports
  case wrf a v =>
    cases fregOf a
    · exact .refused
    · dsimp only
      split
      · exact .refused
      · exact .respond_of_ports
  case rdv | wrv =>
    split
    · exact .respond_of_ports
    · exact .refused

/-! ### What an ILLEGAL answer says -/

theorem Answers.unique {s t : State} {rs rs' : List Resp} (h : Answers s t rs) (h' : Answers s t rs') : rs = rs' :=
  List.append_cancel_left (h.1.symm.trans h'.1)

theorem resp_injective {st st' : Status} {d d' : Word} (h : resp st d = resp st' d') : st = st' ∧ d = d' := by
  simpa [resp] using h

/-- A command answered ILLEGAL did nothing but refuse; on its port not with reason 3. -/
theorem exec_answers_illegal {i : Instr} {s t : State} {n : Word} (h : exec i s = .next t)
    (ha : Answers s t (resp .illegal n)) :
    ∃ r, t = s.illegal r ∧ r.code = n ∧ (legalOn s.cur i = true → r ≠ .wrongPort) := by
  have refusal (r : Reason) (ht : t = s.illegal r) : r.code = n := by
    subst ht
    exact (resp_injective ((s.illegal_onlyAnswers r).1.unique ha)).2
  cases hl : legalOn s.cur i
  · rw [exec_of_not_legalOn hl] at h
    injection h with h
    exact ⟨_, h.symm, refusal _ h.symm, nofun⟩
  · cases exec_reply hl h with
    | refusal r hr ht => exact ⟨r, ht, refusal r ht, fun _ => hr⟩
    | regular rs hs ha' =>
      rw [ha'.unique ha] at hs
      exact absurd rfl (hs _ (List.mem_singleton_self _))

/-- Settles O15: off its port a command is refused with reason 3, and on it never with that reason. -/
theorem portLegalityIsEnforced : Obligations.PortLegalityIsEnforced := by
  unfold Obligations.PortLegalityIsEnforced
  intro i s
  refine ⟨fun hl => ⟨_, exec_of_not_legalOn hl, s.illegal_onlyAnswers _⟩, fun hl t h ha => ?_⟩
  obtain ⟨r, -, hn, hr⟩ := exec_answers_illegal h ha
  have hr := hr hl
  cases r
  case wrongPort => exact hr rfl
  all_goals exact absurd hn (by decide)

/-- Settles O16: what is answered ILLEGAL is a refusal, and a refusal only answers. -/
theorem illegalAnswersChangeNothing : Obligations.IllegalAnswersChangeNothing := by
  unfold Obligations.IllegalAnswersChangeNothing
  intro i s t n h ha
  obtain ⟨r, rfl, rfl, -⟩ := exec_answers_illegal h ha
  exact s.illegal_onlyAnswers r

/-! ### A beat that is no command is answered ILLEGAL (30_encoding.md R77, R81) -/

/-- No payload follows an opcode outside the map (30_encoding.md R77). -/
theorem payloadBeats_of_unknown {cw : Beat} {ps : List Byte} (h : decodeHeader cw ps = .error .unknownOpcode) :
    payloadBeats cw = 0 := by
  have hrow := (headerBeatsAreClassified cw ps).1.1 h
  have hpushall : opOf cw ≠ 0x13 := Ne.symm (hrow (0x13, .v) (by decide))
  have hcrc16 : opOf cw ≠ 0x24 := Ne.symm (hrow (0x24, .v) (by decide))
  exact if_neg fun h => h.elim hpushall hcrc16

theorem PortState.ready_of_illegal {x : PortState} {e : DecodeError} {rest : List Beat} (hb : x.busy = none)
    (hd : decode x.inbox = .illegal e rest) : x.ready = true := by
  unfold PortState.ready
  rw [hb, hd]

theorem PortState.overrun_of_illegal {x : PortState} {e : DecodeError} {rest : List Beat} (hb : x.busy = none)
    (hd : decode x.inbox = .illegal e rest) : x.overrun = !rest.isEmpty := by
  unfold PortState.overrun
  rw [hb, hd]

theorem State.flushExposed_of_illegal {s : State} {e : DecodeError} {rest : List Beat}
    (hd : decode s.portC.inbox = .illegal e rest) : s.flushExposed = false := by
  unfold State.flushExposed
  rw [hd]

theorem State.runCurrent_of_illegal {s : State} {e : DecodeError} {rest : List Beat} (h : s.running = none)
    (hd : decode (s.port s.cur).inbox = .illegal e rest) :
    s.runCurrent = .next ((s.setInbox rest).illegal (reasonOf e)) := by
  unfold State.runCurrent
  rw [h, hd]

/-- A lone beat that is no command is in order while the other port has nothing to do. -/
theorem State.orderly_of_illegal {s : State} {q : Port} {e : DecodeError} (hb : (s.port q).busy = none)
    (hd : decode (s.port q).inbox = .illegal e []) (ho : (s.port q.other).ready = false) : s.orderly = true := by
  have hq : (s.port q).overrun = false := PortState.overrun_of_illegal hb hd
  have hother := PortState.overrun_of_not_ready ho
  rw [State.orderly_iff]
  cases q
  · exact ⟨hq, hother, State.flushExposed_of_short (PortState.decode_of_not_ready ho)⟩
  · exact ⟨hother, hq, State.flushExposed_of_illegal hd⟩

/-- Settles O14: the step runs the port's one beat, and the refusal is all it does. -/
theorem undecodableBeatIsAnsweredIllegal : Obligations.UndecodableBeatIsAnsweredIllegal := by
  unfold Obligations.UndecodableBeatIsAnsweredIllegal
  intro s q cw bs rest e hr hb ho hin hd
  obtain ⟨-, hhead, hrest⟩ := decode_illegal_iff.1 hd
  refine ⟨hrest.symm, ?_, ?_⟩
  · rintro rfl
    rw [← hrest, payloadBeats_of_unknown hhead, List.drop_zero]
  · rintro rfl
    rw [← hin] at hd
    obtain ⟨alone, -⟩ := step_of_ready hr (State.orderly_of_illegal hb hd ho) (PortState.ready_of_illegal hb hd)
    have hstep := (alone ho).trans (State.runCurrent_of_illegal hb hd)
    refine ⟨_, hstep, ?_⟩
    cases e <;> exact State.illegal_onlyAnswers _ _

end Sys2Proof.Machine
end

section
/-! PROOFS. The single-byte ring commands, the queries, and one atomic part of each bulk ring command (40_ring_buffer.md
R101 to R109). -/

namespace Sys2Proof.Machine

/-! ### What each command does on its port -/

section

variable {s : State}

theorem State.isFull_iff_eq : s.isFull = true ↔ s.tail - s.head = s.cfg.capWord := beq_iff_eq

theorem State.isFull_eq_false : s.isFull = false ↔ s.tail - s.head ≠ s.cfg.capWord := beq_eq_false_iff_ne

theorem State.isEmpty_iff_eq : s.isEmpty = true ↔ s.head = s.tail := beq_iff_eq

theorem State.isEmpty_eq_false : s.isEmpty = false ↔ s.head ≠ s.tail := beq_eq_false_iff_ne

theorem exec_push_of_full (hc : s.cur = .p) (hf : s.isFull = true) (b : Byte) :
    exec (.push b) s = .next (s.respond .full 0) := by
  simp [exec, execPush, hc, hf]

theorem exec_push_of_room (hc : s.cur = .p) (hf : s.isFull = false) (b : Byte) :
    exec (.push b) s = .next ((s.pushByte b).respond .ok 0) := by
  simp [exec, execPush, hc, hf]

theorem exec_pop_of_empty (hc : s.cur = .c) (he : s.isEmpty = true) : exec .pop s = .next (s.respond .none 0) := by
  simp [exec, execPop, hc, State.popByte_none he]

theorem exec_pop_of_held (hc : s.cur = .c) (he : s.isEmpty = false) :
    exec .pop s = .next (s.advanceHead.respond .ok (s.rbRead (s.phys s.head)).word) := by
  simp [exec, execPop, hc, State.popByte_some he]

theorem exec_peek_of_empty (hc : s.cur = .c) (he : s.isEmpty = true) : exec .peek s = .next (s.respond .none 0) := by
  simp [exec, execPeek, hc, State.popByte_none he]

theorem exec_peek_of_held (hc : s.cur = .c) (he : s.isEmpty = false) :
    exec .peek s = .next (s.respond .ok (s.rbRead (s.phys s.head)).word) := by
  simp [exec, execPeek, hc, State.popByte_some he]

/-- PUSHALL goes on while a byte is left and the ring is not full (40_ring_buffer.md R104). -/
theorem exec_pushall_of_room {ps : List Byte} {b : Byte} (hc : s.cur = .p) (hf : s.isFull = false)
    (hb : ps[s.pushallPosition]? = some b) : exec (.pushall ps) s =
      .next ((s.pushByte b).setRunning (some (.pushall ps (s.pushallPosition + 1)))) := by
  simp [exec, execPushall, hc, hf, hb]

/-- PUSHALL ends at a full ring or with no byte left (40_ring_buffer.md R104). -/
theorem exec_pushall_of_done {ps : List Byte} (hc : s.cur = .p)
    (h : s.isFull = true ∨ ps.length ≤ s.pushallPosition) :
    exec (.pushall ps) s = .next (s.pushallEnd s.pushallPosition) := by
  rw [exec, execPushall, State.onlyP_p hc]
  cases hb : ps[s.pushallPosition]? with
  | none => rfl
  | some b =>
    have hlt := (List.getElem?_eq_some_iff.1 hb).1
    dsimp only
    rw [if_pos (h.resolve_right (by omega))]

/-- POPALL goes on while bytes are wanted and the ring is not empty (40_ring_buffer.md R105). -/
theorem exec_popall_of_held {m : Half} (hc : s.cur = .c) (he : s.isEmpty = false)
    (hn : s.popallOut.length < m.toNat) : exec (.popall m) s =
      .next (s.advanceHead.setRunning (some (.popall m (s.popallOut ++ [s.rbRead (s.phys s.head)])))) := by
  rw [exec, execPopall, State.onlyC_c hc, if_neg (by omega), State.popByte_some he]

/-- POPALL ends at an empty ring or with all wanted bytes out (40_ring_buffer.md R105). -/
theorem exec_popall_of_done {m : Half} (hc : s.cur = .c)
    (h : s.isEmpty = true ∨ m.toNat ≤ s.popallOut.length) :
    exec (.popall m) s = .next (s.popallEnd s.popallOut) := by
  rw [exec, execPopall, State.onlyC_c hc]
  split
  · rfl
  · rw [State.popByte_none (h.resolve_right ‹_›)]

end

/-! ### What an answer or the progress of a bulk command leaves alone -/

section

variable {s u : State}

/-- An answer after a change that answers nothing is the command's answer. -/
theorem Unanswered.answers (h : Unanswered s u) (rs : List Resp) : Answers s (u.respondAll rs) rs :=
  (u.respondAll_onlyAnswers rs).1.of_ports h.1 h.2

theorem State.pushByte_unanswered (s : State) (b : Byte) : Unanswered s (s.pushByte b) := .of_ports rfl rfl rfl

theorem State.advanceHead_unanswered (s : State) : Unanswered s s.advanceHead := s.advanceHead_fixed.unanswered

theorem State.busy_of_running_p {r : Option Running} (h : s.running = r) (hc : s.cur = .p) : s.portP.busy = r := by
  rw [← h, State.running, hc]; rfl

theorem State.busy_of_running_c {r : Option Running} (h : s.running = r) (hc : s.cur = .c) : s.portC.busy = r := by
  rw [← h, State.running, hc]; rfl

@[simp] theorem State.running_respondAll (s : State) (rs : List Resp) : (s.respondAll rs).running = s.running :=
  s.busy_respondAll rs s.cur

/-- A bulk command that goes on after a change of the ring answers nothing, and changes only the ring and its own
progress (20_memory.md R58). -/
theorem SameButRing.goOn (h : SameButRing s u) (ha : Unanswered s u) (r : Option Running) :
    Answers s (u.setRunning r) [] ∧ SameButRingAndBusy s (u.setRunning r) := by
  obtain ⟨⟨k1, k2, k3, k4, k5, k6, k7⟩, -, answer⟩ := u.setRunning_sameButRingAndBusy r
  obtain ⟨h1, h2, h3, h4, h5, h6, h7⟩ := h
  rw [ha.1] at k5
  exact ⟨answer.of_ports ha.1 ha.2, h1.trans k1, h2.trans k2, h3.trans k3, h4.trans k4, k5.trans (h5 _), h6.trans k6,
    h7.trans k7⟩

/-- A bulk command that ends answers, and changes nothing else but that it is in execution no more. -/
theorem State.finish_onlyAnswers (s : State) (rs : List Resp) :
    ((s.setRunning none).respondAll rs).running = none ∧ Answers s ((s.setRunning none).respondAll rs) rs ∧
      SameRing s ((s.setRunning none).respondAll rs) ∧ SameButRingAndBusy s ((s.setRunning none).respondAll rs) := by
  obtain ⟨same, ring, -⟩ := s.setRunning_sameButRingAndBusy none
  have answer := (s.setRunning none).respondAll_onlyAnswers rs
  have ⟨answers, ring', _⟩ := answer
  exact ⟨by simp, answers.of_ports rfl (s.out_setRunning none), ring.trans ring', answer.sameButRingAndBusy same⟩

end

/-! ### PUSH, POP, PEEK (40_ring_buffer.md R101 to R103) -/

/-- Settles O17: a full ring is left alone, and the accepting body writes the cell at TAIL. -/
theorem pushAppendsOrReportsFull : Obligations.PushAppendsOrReportsFull := by
  unfold Obligations.PushAppendsOrReportsFull
  refine fun b s => ⟨rfl, fun hc hf => ?_, fun hc hf => ?_⟩
  · exact ⟨_, exec_push_of_full hc (State.isFull_iff_eq.2 hf) b, s.respond_onlyAnswers _ _⟩
  · refine ⟨_, exec_push_of_room hc (State.isFull_eq_false.2 hf) b, ?_, fun a ha => ?_, rfl, rfl,
      (s.pushByte_unanswered b).answers _,
      (State.respond_onlyAnswers _ _ _).sameButRing (s.pushByte_sameButRing b)⟩
    · exact (s.rbRead_pushByte b _).trans (if_pos rfl)
    · exact (s.rbRead_pushByte b a).trans (if_neg ha)

/-- Settles O18: the byte is read before HEAD advances, and no cell is written. -/
theorem popRemovesTheOldestByte : Obligations.PopRemovesTheOldestByte := by
  unfold Obligations.PopRemovesTheOldestByte
  refine fun s => ⟨rfl, fun hc he => ?_, fun hc he => ?_⟩
  · exact ⟨_, exec_pop_of_empty hc (State.isEmpty_iff_eq.2 he), s.respond_onlyAnswers _ _⟩
  · exact ⟨_, exec_pop_of_held hc (State.isEmpty_eq_false.2 he), rfl, rfl, fun _ => rfl,
      s.advanceHead_unanswered.answers _, (State.respond_onlyAnswers _ _ _).sameButRing s.advanceHead_sameButRing⟩

/-- Settles O19: PEEK is an answer alone. -/
theorem peekIsNonDestructive : Obligations.PeekIsNonDestructive := by
  unfold Obligations.PeekIsNonDestructive
  refine fun s => ⟨rfl, fun hc he => ?_, fun hc he => ?_⟩
  · exact ⟨_, exec_peek_of_empty hc (State.isEmpty_iff_eq.2 he), s.respond_onlyAnswers _ _⟩
  · exact ⟨_, exec_peek_of_held hc (State.isEmpty_eq_false.2 he), s.respond_onlyAnswers _ _⟩

/-! ### One atomic part of PUSHALL and of POPALL (40_ring_buffer.md R104, R105) -/

/-- Settles O20: a part is PUSH's body and the command goes on, or the end of the command. -/
theorem pushallPushesOneByteAPart : Obligations.PushallPushesOneByteAPart := by
  unfold Obligations.PushallPushesOneByteAPart
  refine fun ps s => ⟨rfl, fun hc => ⟨fun b hf hb => ?_, fun h => ?_⟩⟩
  · refine ⟨_, exec_pushall_of_room hc (State.isFull_eq_false.2 hf) hb, ?_, fun a ha => ?_, rfl, rfl, ?_,
      (s.pushByte_sameButRing b).goOn (s.pushByte_unanswered b) _⟩
    · exact (s.rbRead_pushByte b _).trans (if_pos rfl)
    · exact (s.rbRead_pushByte b a).trans (if_neg ha)
    · exact State.busy_of_running_p (State.running_setRunning _ _) hc
  · obtain ⟨idle, rest⟩ := s.finish_onlyAnswers (resp .ok (BitVec.ofNat 32 s.pushallPosition))
    exact ⟨_, exec_pushall_of_done hc (h.imp_left State.isFull_iff_eq.2), State.busy_of_running_p idle hc, rest⟩

/-- Settles O22: a part is POP's body and the command goes on, or the end of the command. -/
theorem popallPopsOneByteAPart : Obligations.PopallPopsOneByteAPart := by
  unfold Obligations.PopallPopsOneByteAPart
  refine fun m s => ⟨rfl, fun hc => ⟨fun he hn => ?_, fun h => ?_⟩⟩
  · exact ⟨_, exec_popall_of_held hc (State.isEmpty_eq_false.2 he) hn, rfl, rfl, fun _ => rfl,
      State.busy_of_running_c (State.running_setRunning _ _) hc,
      s.advanceHead_sameButRing.goOn s.advanceHead_unanswered _⟩
  · obtain ⟨idle, answer, ring, rest⟩ := s.finish_onlyAnswers (popallWords s.popallOut)
    exact ⟨_, exec_popall_of_done hc (h.imp_left State.isEmpty_iff_eq.2), State.busy_of_running_c idle hc, ring,
      answer, rest⟩

/-! ### The queries (40_ring_buffer.md R106 to R109) -/

theorem boolWord_beq {α : Type} [DecidableEq α] (x y : α) : boolWord (x == y) = if x = y then 1 else 0 := by
  by_cases h : x = y <;> simp [boolWord, h]

/-- Settles O24: each query is an answer alone. -/
theorem ringQueriesReportCounts : Obligations.RingQueriesReportCounts := by
  unfold Obligations.RingQueriesReportCounts
  refine fun s => ⟨rfl, rfl, rfl, ⟨_, rfl, s.respond_onlyAnswers _ _⟩, ?_, ?_⟩
  · rw [← boolWord_beq]; exact ⟨_, rfl, s.respond_onlyAnswers _ _⟩
  · rw [← boolWord_beq]; exact ⟨_, rfl, s.respond_onlyAnswers _ _⟩

/-- Settles O25: FREE answers the capacity less the used-count. -/
theorem freeReportsTheRestOfTheRing : Obligations.FreeReportsTheRestOfTheRing := by
  unfold Obligations.FreeReportsTheRestOfTheRing
  exact fun s => ⟨rfl, s.freeCount, ⟨_, rfl, s.respond_onlyAnswers _ _⟩, BitVec.sub_add_cancel _ _⟩

end Sys2Proof.Machine
end

section
/-! PROOFS. FLUSH and its premise, that no push-path command is in flight or sent on port P (40_ring_buffer.md R110,
70_reset_and_hazards.md R254). -/

namespace Sys2Proof.Machine

/-! ### Which beats hold a push-path command -/

/-- The queries, legal on both ports (30_encoding.md R80): what port P may run beside FLUSH (70_reset_and_hazards.md
R254). -/
def IsQuery (i : Instr) : Prop := i = .used ∨ i = .free ∨ i = .empty ∨ i = .full ∨ ∃ a, i = .rds a

/-- PUSH and PUSHALL, the push-path commands (70_reset_and_hazards.md R254). -/
def IsPushPath (i : Instr) : Prop := (∃ b, i = .push b) ∨ ∃ ps, i = .pushall ps

theorem IsQuery.header {i : Instr} (h : IsQuery i) :
    isPushPath (headerOf i) = false ∧ payloadBeats (headerOf i) = 0 := by
  rcases h with rfl | rfl | rfl | rfl | ⟨a, rfl⟩
  case inr.inr.inr.inr =>
    have hd : decodeHeader (headerOf (.rds a)) [] = .ok (.rds a) := decodeHeader_headerOf _
    exact ⟨by rw [isPushPath, hd], payloadBeats_headerOf rfl⟩
  all_goals decide

theorem IsPushPath.header {i : Instr} (h : IsPushPath i) : isPushPath (headerOf i) = true := by
  rcases h with ⟨b, rfl⟩ | ⟨ps, rfl⟩
  · rw [isPushPath, decodeHeader_push]
  · simp [isPushPath, decodeHeader, headerOf, decodeFields, fmtV]

theorem isPushPath_crc16 (ps : List Byte) : isPushPath (headerOf (.crc16 ps)) = false := by
  simp [isPushPath, decodeHeader, headerOf, decodeFields, fmtV]

theorem pushPathIn_of_push {i : Instr} (h : IsPushPath i) (rest : List Beat) :
    pushPathIn 0 (headerOf i :: rest) = true := by rw [pushPathIn, if_pos h.header]

/-- A query is passed over. -/
theorem pushPathIn_query {i : Instr} (h : IsQuery i) (rest : List Beat) :
    pushPathIn 0 (headerOf i :: rest) = pushPathIn 0 rest := by
  obtain ⟨hpush, hbeats⟩ := h.header
  rw [pushPathIn, hpush, hbeats]
  rfl

/-- Payload beats are passed over, whatever they hold (30_encoding.md R77). -/
theorem pushPathIn_skip (xs rest : List Beat) : pushPathIn xs.length (xs ++ rest) = pushPathIn 0 rest := by
  induction xs with
  | nil => rfl
  | cons x xs ih => exact ih

/-- A CRC16, refused on port P, is passed over with its payload. -/
theorem pushPathIn_crc16 {ps : List Byte} (hw : (Instr.crc16 ps).wf = true) (rest : List Beat) :
    pushPathIn 0 (encode (.crc16 ps) ++ rest) = pushPathIn 0 rest := by
  rw [encode, List.cons_append, pushPathIn, isPushPath_crc16, payloadBeats_headerOf hw,
    ← List.length_map (as := (Instr.crc16 ps).payload) fun b => b.setWidth 32]
  exact pushPathIn_skip _ rest

theorem pushPathIn_of_queries {bs : List Beat} (h : ∀ x ∈ bs, ∃ i, x = headerOf i ∧ IsQuery i) :
    pushPathIn 0 bs = false := by
  induction bs with
  | nil => rfl
  | cons x bs ih =>
    obtain ⟨⟨i, rfl, hi⟩, hbs⟩ := List.forall_mem_cons.1 h
    exact (pushPathIn_query hi bs).trans (ih hbs)

/-! ### The premise of FLUSH -/

section

variable {s : State}

theorem State.producerQuiet_of_push_path (h : pushPathIn 0 s.portP.inbox = true) : s.producerQuiet = false := by
  unfold State.producerQuiet
  rw [h]
  split <;> rfl

theorem State.producerQuiet_of_no_push_path (hb : s.portP.busy = none) (h : pushPathIn 0 s.portP.inbox = false) :
    s.producerQuiet = true := by
  unfold State.producerQuiet
  rw [hb, h]
  rfl

theorem exec_flush_of_quiet (hc : s.cur = .c) (hq : s.producerQuiet = true) :
    exec .flush s = .next (s.clearRing.respond .ok 0) := by
  simp [exec, execFlush, hc, hq]

theorem exec_flush_of_not_quiet (hc : s.cur = .c) (hq : s.producerQuiet = false) :
    exec .flush s = .fault .flushNotQuiescent := by
  simp [exec, execFlush, hc, hq]

end

theorem State.clearRing_unanswered (s : State) : Unanswered s s.clearRing := .of_ports rfl rfl rfl

/-- Settles O26: FLUSH clears the indices alone, and a query or a refused command is passed over to what was sent behind
it. -/
theorem flushEmptiesTheRingOrFaults : Obligations.FlushEmptiesTheRingOrFaults := by
  unfold Obligations.FlushEmptiesTheRingOrFaults
  refine fun s => ⟨rfl, fun hc => ⟨fun hq => ?_, exec_flush_of_not_quiet hc⟩,
    fun hb hin => State.producerQuiet_of_no_push_path hb (pushPathIn_of_queries hin),
    fun ps n => State.producerQuiet_of_pushall, fun i rest hi => ?_⟩
  · exact ⟨_, exec_flush_of_quiet hc hq, rfl, rfl, fun _ => rfl, s.clearRing_unanswered.answers _,
      (State.respond_onlyAnswers _ _ _).sameButRing s.clearRing_sameButRing⟩
  · have sent := pushPathIn_of_push hi rest
    refine ⟨fun hin => ?_, fun j hj hin => ?_, fun ps hw hin => ?_⟩
    · exact State.producerQuiet_of_push_path (by rw [hin, sent])
    · exact State.producerQuiet_of_push_path (by rw [hin, pushPathIn_query hj, sent])
    · exact State.producerQuiet_of_push_path (by rw [hin, pushPathIn_crc16 hw, sent])

end Sys2Proof.Machine
end

section
/-! PROOFS. Runs of ring commands: filling and draining the ring (40_ring_buffer.md R112), and a bulk command alone
(40_ring_buffer.md R104, R105). -/

namespace Sys2Proof.Machine

/-! ### Answers and progress, one after another -/

section

variable (s : State)

theorem State.setPort_port (q : Port) : s.setPort q (s.port q) = s := by
  cases q <;> rfl

theorem State.respondAll_nil : s.respondAll [] = s := by
  rw [State.respondAll, List.append_nil]
  exact s.setPort_port s.cur

theorem State.respondAll_respondAll (xs ys : List Resp) :
    (s.respondAll xs).respondAll ys = s.respondAll (xs ++ ys) := by
  cases hc : s.cur <;> simp [State.respondAll, State.setPort, State.port, hc]

theorem State.setRunning_setRunning (r r' : Option Running) : (s.setRunning r).setRunning r' = s.setRunning r' := by
  cases hc : s.cur <;> simp [State.setRunning, State.setPort, State.port, hc]

@[simp] theorem State.usedCount_setRunning (r : Option Running) : (s.setRunning r).usedCount = s.usedCount := rfl

@[simp] theorem State.held_setRunning (r : Option Running) : (s.setRunning r).held = s.held := rfl

@[simp] theorem State.held_pushallEnd (n : Nat) : (s.pushallEnd n).held = s.held := rfl

@[simp] theorem State.held_popallEnd (out : List Byte) : (s.popallEnd out).held = s.held := rfl

/-- The end of a bulk command leaves the other port alone. -/
theorem State.port_finish_other (rs : List Resp) :
    ((s.setRunning none).respondAll rs).port s.cur.other = s.port s.cur.other := by
  have respond := (s.setRunning none).port_setPort_other s.cur
  exact (respond _).trans (s.port_setPort_other _ _)

end

/-! ### Many bytes pushed -/

/-- PUSH's body on one byte after another (40_ring_buffer.md R101). -/
def State.pushBytes (s : State) (bs : List Byte) : State := bs.foldl State.pushByte s

section

variable (s : State)

@[simp] theorem State.pushBytes_cons (b : Byte) (bs : List Byte) :
    s.pushBytes (b :: bs) = (s.pushByte b).pushBytes bs := rfl

theorem State.pushBytes_respondAll (rs : List Resp) (bs : List Byte) :
    (s.respondAll rs).pushBytes bs = (s.pushBytes bs).respondAll rs :=
  List.foldl_hom (State.respondAll · rs) fun _ _ => rfl

theorem State.pushBytes_setRunning (r : Option Running) (bs : List Byte) :
    (s.setRunning r).pushBytes bs = (s.pushBytes bs).setRunning r :=
  List.foldl_hom (State.setRunning · r) fun _ _ => rfl

/-- Pushing writes ring storage and TAIL alone (40_ring_buffer.md R101). -/
theorem State.pushBytes_eq (bs : List Byte) : ∃ rb tail, s.pushBytes bs = { s with rb := rb, tail := tail } := by
  induction bs generalizing s with
  | nil => exact ⟨s.rb, s.tail, rfl⟩
  | cons b bs ih =>
    obtain ⟨rb, tail, e⟩ := ih (s.pushByte b)
    exact ⟨rb, tail, e⟩

theorem State.pushBytes_fixed (bs : List Byte) : SameFixed s (s.pushBytes bs) := by
  obtain ⟨rb, tail, e⟩ := s.pushBytes_eq bs
  rw [e]
  constructor <;> rfl

theorem State.pushBytes_sameButRing (bs : List Byte) : SameButRing s (s.pushBytes bs) := by
  obtain ⟨rb, tail, e⟩ := s.pushBytes_eq bs
  rw [e]
  exact s.advanceHead_sameButRing

theorem State.pushBytes_head (bs : List Byte) : (s.pushBytes bs).head = s.head := by
  obtain ⟨rb, tail, e⟩ := s.pushBytes_eq bs
  rw [e]

/-- A ring that holds less than `N` bytes is not full (10_state.md R23). -/
theorem State.isFull_of_lt (h : s.usedCount.toNat < s.cfg.cap) : s.isFull = false :=
  Bool.eq_false_iff.2 fun hf => Nat.ne_of_lt h (s.isFull_iff.1 hf)

/-- What fits is appended in order (40_ring_buffer.md R101). -/
theorem State.held_pushBytes {bs : List Byte} (h : s.usedCount.toNat + bs.length ≤ s.cfg.cap) :
    (s.pushBytes bs).held = s.held ++ bs := by
  induction bs generalizing s with
  | nil => exact (List.append_nil _).symm
  | cons b bs ih =>
    rw [List.length_cons] at h
    have hroom : s.usedCount.toNat < s.cfg.cap := by omega
    have hrest : (s.pushByte b).usedCount.toNat + bs.length ≤ s.cfg.cap := by
      rw [s.usedCount_pushByte b hroom]; omega
    rw [s.pushBytes_cons, ih _ hrest, s.held_pushByte b hroom, List.append_assoc]
    rfl

theorem State.usedCount_pushBytes {bs : List Byte} (h : s.usedCount.toNat + bs.length ≤ s.cfg.cap) :
    (s.pushBytes bs).usedCount.toNat = s.usedCount.toNat + bs.length := by
  rw [← State.held_length, s.held_pushBytes h, List.length_append, State.held_length]

end

/-! ### Many bytes popped -/

/-- POP's body `n` times (40_ring_buffer.md R102). -/
def State.popBytes (s : State) (n : Nat) : State := { s with head := s.head + BitVec.ofNat 32 n }

section

variable (s : State)

theorem State.popBytes_zero : s.popBytes 0 = s := by simp [State.popBytes]

theorem State.popBytes_succ (n : Nat) : s.popBytes (n + 1) = s.advanceHead.popBytes n := by
  rw [State.popBytes, State.popBytes, s.advanceHead_index]
  rfl

theorem State.popBytes_fixed (n : Nat) : SameFixed s (s.popBytes n) := by constructor <;> rfl

theorem State.popBytes_sameButRing (n : Nat) : SameButRing s (s.popBytes n) := s.advanceHead_sameButRing

/-- A ring that holds `n + 1` bytes holds one, and `n` after a POP. -/
theorem State.isEmpty_of_succ_le {n : Nat} (h : n + 1 ≤ s.usedCount.toNat) :
    s.isEmpty = false ∧ n ≤ s.advanceHead.usedCount.toNat := by
  have hpos : s.usedCount.toNat ≠ 0 := Nat.ne_of_gt (Nat.zero_lt_of_lt h)
  have he : s.isEmpty = false := Bool.eq_false_iff.2 fun he => hpos (s.isEmpty_iff.1 he)
  have := s.usedCount_pop he
  exact ⟨he, by omega⟩

/-- The oldest bytes are gone (40_ring_buffer.md R102). -/
theorem State.held_popBytes {n : Nat} (h : n ≤ s.usedCount.toNat) : (s.popBytes n).held = s.held.drop n := by
  induction n generalizing s with
  | zero => rw [s.popBytes_zero, List.drop_zero]
  | succ n ih =>
    obtain ⟨he, hn⟩ := s.isEmpty_of_succ_le h
    rw [s.popBytes_succ, ih _ hn, s.held_advanceHead he, List.drop_succ_cons]

end

/-! ### Filling and draining (40_ring_buffer.md R112) -/

/-- PUSHes of bytes that fit are all accepted. -/
theorem execAll_push {s : State} {bs : List Byte} (hc : s.cur = .p) (h : s.usedCount.toNat + bs.length ≤ s.cfg.cap) :
    execAll (bs.map .push) s =
      .next ((s.pushBytes bs).respondAll (List.replicate bs.length { st := .ok, data := 0 })) := by
  induction bs generalizing s with
  | nil => exact congrArg _ s.respondAll_nil.symm
  | cons b bs ih =>
    rw [List.length_cons] at h
    have hroom : s.usedCount.toNat < s.cfg.cap := by omega
    have hrest : ((s.pushByte b).respond .ok 0).usedCount.toNat + bs.length ≤ s.cfg.cap := by
      have := s.usedCount_pushByte b hroom
      show (s.pushByte b).usedCount.toNat + bs.length ≤ s.cfg.cap
      omega
    rw [List.map_cons, execAll, exec_push_of_room hc (s.isFull_of_lt hroom) b]
    refine (ih (s := (s.pushByte b).respond .ok 0) hc hrest).trans (congrArg _ ?_)
    rw [State.respond, State.pushBytes_respondAll, State.respondAll_respondAll]
    rfl

/-- POPs of bytes that are held return them, oldest first. -/
theorem execAll_pop {s : State} {n : Nat} (hc : s.cur = .c) (h : n ≤ s.usedCount.toNat) :
    execAll (List.replicate n .pop) s =
      .next ((s.popBytes n).respondAll ((s.held.take n).map fun b => { st := .ok, data := b.word })) := by
  induction n generalizing s with
  | zero => rw [s.popBytes_zero]; exact congrArg _ s.respondAll_nil.symm
  | succ n ih =>
    obtain ⟨he, hn⟩ := s.isEmpty_of_succ_le h
    rw [List.replicate_succ, execAll, exec_pop_of_held hc he]
    refine (ih (s := s.advanceHead.respond .ok _) hc hn).trans (congrArg _ ?_)
    rw [s.popBytes_succ, s.held_advanceHead he]
    exact (s.advanceHead.popBytes n).respondAll_respondAll _ _

/-- `N` PUSHes into an empty ring fill it. -/
theorem execAll_push_fills {s : State} {bs : List Byte} (hc : s.cur = .p) (he : s.isEmpty = true)
    (hlen : bs.length = s.cfg.cap) : ∃ t, execAll (bs.map .push) s = .next t ∧
      Answers s t (List.replicate s.cfg.cap { st := .ok, data := 0 }) ∧ t.cur = .p ∧ t.isFull = true ∧
      t.held = bs := by
  have hused := s.isEmpty_iff.1 he
  have hfits : s.usedCount.toNat + bs.length ≤ s.cfg.cap := by omega
  have fixed := s.pushBytes_fixed bs
  have hfull : (s.pushBytes bs).isFull = true := by
    rw [State.isFull_iff, s.usedCount_pushBytes hfits, fixed.cfg, hused, hlen, Nat.zero_add]
  have hheld : (s.pushBytes bs).held = bs := by
    rw [s.held_pushBytes hfits, State.held_of_isEmpty he, List.nil_append]
  exact ⟨_, execAll_push hc hfits, hlen ▸ fixed.unanswered.answers _, fixed.cur.trans hc, hfull, hheld⟩

/-- As many POPs as bytes are held return them all. -/
theorem execAll_pop_drains {s : State} {bs : List Byte} (hc : s.cur = .c) (hheld : s.held = bs) :
    ∃ u, execAll (List.replicate bs.length .pop) s = .next u ∧
      Answers s u (bs.map fun b => { st := .ok, data := b.word }) ∧ u.cur = .c ∧ u.isEmpty = true := by
  subst hheld
  have hlen := s.held_length
  have hempty : (s.popBytes s.held.length).isEmpty = true := by
    rw [State.isEmpty_iff, ← State.held_length, s.held_popBytes hlen.le, List.drop_length, List.length_nil]
  have run := execAll_pop hc hlen.le
  rw [List.take_length] at run
  exact ⟨_, run, (s.popBytes_fixed _).unanswered.answers _, hc, hempty⟩

/-- Settles O28: `N` PUSHes fill the ring, and what is held is what was pushed, which `N` POPs return. -/
theorem fillAndDrain : Obligations.FillAndDrain := by
  unfold Obligations.FillAndDrain
  intro s bs hc he hlen
  obtain ⟨t, hpush, ⟨hpout, hcout⟩, htc, htf, hheld⟩ := execAll_push_fills hc (State.isEmpty_iff_eq.2 he) hlen
  obtain ⟨u, hpop, ⟨huout, -⟩, huc, hue⟩ := execAll_pop_drains (s := { t with cur := .c }) rfl hheld
  have hfull := State.isFull_iff_eq.1 htf
  have hempty := State.isEmpty_iff_eq.1 hue
  rw [hc] at hpout hcout
  obtain ⟨-, -, -, -, -, full⟩ := ringQueriesReportCounts t
  obtain ⟨-, -, -, -, empty, -⟩ := ringQueriesReportCounts u
  rw [if_pos hfull] at full
  rw [if_pos hempty] at empty
  refine ⟨t, hpush, hpout, full, fun b => ?_, u, hlen ▸ hpop, ?_, empty, ?_⟩
  · exact ⟨_, exec_push_of_full htc htf b, t.respond_onlyAnswers _ _⟩
  · exact huout.trans (congrArg (· ++ _) hcout)
  · exact ⟨_, exec_pop_of_empty huc hue, u.respond_onlyAnswers _ _⟩

/-! ### A bulk command alone (40_ring_buffer.md R104, R105) -/

/-- The next step of `s` runs command `i` on `u`, where port `q`, whose command it is, has sent nothing more and the
other port has nothing to do (20_memory.md R58, R60). -/
structure Turn (q : Port) (i : Instr) (s u : State) : Prop where
  runs : step s = exec i u
  cur : u.cur = q
  inbox : (u.port q).inbox = []
  alone : (u.port q.other).ready = false
  reset : u.resetReq = false

/-- A port that is in order is so beside a port with nothing to do, but for a FLUSH (70_reset_and_hazards.md R254). -/
theorem State.orderly_of_alone {s : State} {q : Port} (ho : (s.port q).overrun = false)
    (ha : (s.port q.other).ready = false) (hf : q = .c → s.flushExposed = false) : s.orderly = true := by
  have hother := PortState.overrun_of_not_ready ha
  rw [State.orderly_iff]
  cases q
  · exact ⟨ho, hother, State.flushExposed_of_short (PortState.decode_of_not_ready ha)⟩
  · exact ⟨hother, ho, hf rfl⟩

theorem State.flushExposed_of_decode {s : State} {i : Instr} {rest : List Beat} (hi : i ≠ .flush)
    (hd : decode s.portC.inbox = .ok i rest) : s.flushExposed = false := by
  unfold State.flushExposed
  rw [hd]
  split
  · rename_i h; cases h; exact absurd rfl hi
  · rfl

/-- The turn of the one command sent. -/
theorem Turn.of_sent {s : State} {q : Port} {i : Instr} (hr : s.resetReq = false)
    (ha : (s.port q.other).ready = false) (hb : (s.port q).busy = none) (hd : decode (s.port q).inbox = .ok i [])
    (hi : i ≠ .flush) : Turn q i s (State.setInbox { s with cur := q } []) := by
  have ho := State.orderly_of_alone (PortState.overrun_of_decode hb hd) ha
    (by rintro rfl; exact State.flushExposed_of_decode hi hd)
  obtain ⟨-, runs, -⟩ := (stepRunsTheDecodedCommand s q hr ho).1 i [] hb hd
  exact ⟨runs ha, rfl, State.inbox_setInbox _ _, by cases q <;> exact ha, hr⟩

/-- The turn of a bulk command that goes on. -/
theorem Turn.goOn {q : Port} {i : Instr} {s u w : State} (h : Turn q i s u) (hw : SameFixed u w) {r : Running}
    (hr : r.instr = i) : Turn q i (w.setRunning (some r)) (w.setRunning (some r)) := by
  subst hr
  have hcur : w.cur = q := hw.cur.trans h.cur
  have hport (x : Port) : w.port x = u.port x := by cases x; exacts [hw.portP, hw.portC]
  have hin : ((w.setRunning (some r)).port q).inbox = [] := by rw [w.inbox_setRunning, hport, h.inbox]
  have hbusy : ((w.setRunning (some r)).port q).busy = some r := by rw [← hcur, w.busy_setRunning_cur]
  have ha : ((w.setRunning (some r)).port q.other).ready = false := by
    rw [← hcur, State.setRunning, w.port_setPort_other, hcur, hport, h.alone]
  have hreset : (w.setRunning (some r)).resetReq = false := hw.resetReq.trans h.reset
  have ho := State.orderly_of_alone (PortState.overrun_of_inbox_nil hin) ha
    (by rintro rfl; exact State.flushExposed_of_short (congrArg decode hin))
  obtain ⟨runs, -⟩ := (stepRunsTheDecodedCommand _ q hreset ho).2 r hbusy
  subst hcur
  exact ⟨runs ha, rfl, hin, ha, hreset⟩

/-- A run whose first step is known. -/
theorem run_succ_of_step {M : Host.Core} {s t : M.State} (n : Nat) (h : M.step s = .next t) :
    M.run (n + 1) s = M.run n t := by
  rw [Host.Core.run, h]

@[simp] theorem State.pushallEnd_setRunning (s : State) (r : Option Running) (n : Nat) :
    (s.setRunning r).pushallEnd n = s.pushallEnd n := by
  rw [State.pushallEnd, State.setRunning_setRunning, State.pushallEnd]

@[simp] theorem State.popallEnd_setRunning (s : State) (r : Option Running) (out : List Byte) :
    (s.setRunning r).popallEnd out = s.popallEnd out := by
  rw [State.popallEnd, State.setRunning_setRunning, State.popallEnd]

@[simp] theorem State.pushallPosition_setRunning (s : State) (ps : List Byte) (n : Nat) :
    (s.setRunning (some (.pushall ps n))).pushallPosition = n := by
  rw [State.pushallPosition, State.running_setRunning]

@[simp] theorem State.popallOut_setRunning (s : State) (m : Half) (out : List Byte) :
    (s.setRunning (some (.popall m out))).popallOut = out := by
  rw [State.popallOut, State.running_setRunning]

/-- PUSHALL alone pushes one byte a step while there is room and a byte is left, and then answers. -/
theorem run_pushall {ps : List Byte} {n : Nat} {s u : State} (h : Turn .p (.pushall ps) s u)
    (hroom : u.usedCount.toNat + n ≤ u.cfg.cap) (hleft : u.pushallPosition + n ≤ ps.length)
    (hend : u.usedCount.toNat + n = u.cfg.cap ∨ ps.length = u.pushallPosition + n) :
    Host.Core.run Sys2Proof.core (n + 1) s =
      .next ((u.pushBytes ((ps.drop u.pushallPosition).take n)).pushallEnd (u.pushallPosition + n)) := by
  induction n generalizing s u with
  | zero =>
    have hdone : u.isFull = true ∨ ps.length ≤ u.pushallPosition := hend.imp u.isFull_iff.2 Eq.le
    exact run_succ_of_step (M := Sys2Proof.core) 0 (h.runs.trans (exec_pushall_of_done h.cur hdone))
  | succ n ih =>
    have hlt : u.pushallPosition < ps.length := by omega
    have hroom' : u.usedCount.toNat < u.cfg.cap := by omega
    have hstep := h.runs.trans
      (exec_pushall_of_room h.cur (u.isFull_of_lt hroom') (List.getElem?_eq_getElem hlt))
    have run := ih (h.goOn (w := u.pushByte ps[u.pushallPosition]) (by constructor <;> rfl)
      (r := .pushall ps (u.pushallPosition + 1)) rfl)
    rw [State.pushallPosition_setRunning, State.usedCount_setRunning, u.usedCount_pushByte _ hroom',
      State.setRunning_cfg, State.pushByte_cfg] at run
    refine (run_succ_of_step (M := Sys2Proof.core) _ hstep).trans
      ((run (by omega) (by omega) (by omega)).trans (congrArg _ ?_))
    rw [State.pushBytes_setRunning, State.pushallEnd_setRunning, List.drop_eq_getElem_cons hlt, List.take_succ_cons,
      u.pushBytes_cons, Nat.add_right_comm, Nat.add_assoc]

/-- POPALL alone pops one byte a step while bytes are wanted and held, and then answers. -/
theorem run_popall {m : Half} {n : Nat} {s u : State} (h : Turn .c (.popall m) s u)
    (hheld : n ≤ u.usedCount.toNat) (hleft : u.popallOut.length + n ≤ m.toNat)
    (hend : u.usedCount.toNat = n ∨ m.toNat = u.popallOut.length + n) :
    Host.Core.run Sys2Proof.core (n + 1) s = .next ((u.popBytes n).popallEnd (u.popallOut ++ u.held.take n)) := by
  induction n generalizing s u with
  | zero =>
    have hdone : u.isEmpty = true ∨ m.toNat ≤ u.popallOut.length := hend.imp u.isEmpty_iff.2 Eq.le
    rw [u.popBytes_zero, List.take_zero, List.append_nil]
    exact run_succ_of_step (M := Sys2Proof.core) 0 (h.runs.trans (exec_popall_of_done h.cur hdone))
  | succ n ih =>
    obtain ⟨he, hn⟩ := u.isEmpty_of_succ_le hheld
    have hused := u.usedCount_pop he
    have hstep := h.runs.trans (exec_popall_of_held h.cur he (by omega))
    have run := ih (h.goOn u.advanceHead_fixed
      (r := .popall m (u.popallOut ++ [u.rbRead (u.phys u.head)])) rfl)
    rw [State.popallOut_setRunning, State.usedCount_setRunning, List.length_append, List.length_singleton] at run
    refine (run_succ_of_step (M := Sys2Proof.core) _ hstep).trans
      ((run hn (by omega) (by omega)).trans (congrArg _ ?_))
    rw [u.popBytes_succ, u.held_advanceHead he, List.take_succ_cons, State.held_setRunning, List.append_assoc]
    exact (u.advanceHead.popBytes n).popallEnd_setRunning _ _

/-- What a bulk command of port `q` that changed only the ring leaves once it has answered `rs`. -/
structure Ended (q : Port) (u t : State) (rs : List Resp) : Prop where
  out : (t.port q).out = (u.port q).out ++ rs
  busy : (t.port q).busy = none
  inbox : (t.port q).inbox = []
  other : t.port q.other = u.port q.other
  rest : SameCrc u t ∧ SameFrame u t ∧ SameSession u t ∧ SameParser u t ∧ SameEvents u t

/-- A bulk command that has changed only the ring since its first turn ends by answering. -/
theorem Turn.ended {q : Port} {i : Instr} {s u w : State} (h : Turn q i s u) (hw : SameButRing u w)
    (k : SameFixed u w) (rs : List Resp) : Ended q u ((w.setRunning none).respondAll rs) rs := by
  obtain ⟨busy, answer, -, crc, frame, session, parser, -, events, -, inbox, -⟩ := w.finish_onlyAnswers rs
  obtain ⟨crc', frame', session', parser', -, events', -⟩ := hw
  obtain ⟨out, -⟩ := answer
  have other := w.port_finish_other rs
  obtain rfl : w.cur = q := k.cur.trans h.cur
  have hport (x : Port) : w.port x = u.port x := by cases x; exacts [k.portP, k.portC]
  refine ⟨?_, busy, ?_, other.trans (hport _), crc'.trans crc, frame'.trans frame, session'.trans session,
    parser'.trans parser, events'.trans events⟩
  · rw [out, hport]
  · rw [inbox, hport, h.inbox]

/-- Settles O21: what fits is appended one byte a step, and then PUSHALL answers. -/
theorem pushallAlonePushesWhatFits : Obligations.PushallAlonePushesWhatFits := by
  unfold Obligations.PushallAlonePushesWhatFits
  intro s ps hs hr ha hb hd
  have hle := hs.used_le
  generalize hn : min ps.length (s.cfg.cap - s.usedCount.toNat) = n
  have turn := Turn.of_sent (q := .p) hr ha hb hd nofun
  set u := State.setInbox { s with cur := .p } []
  have hused : u.usedCount.toNat = s.usedCount.toNat := rfl
  have hcap : u.cfg.cap = s.cfg.cap := rfl
  have hpos : u.pushallPosition = 0 := by
    have hrun : u.running = none := hb
    rw [State.pushallPosition, hrun]
  have hfits : u.usedCount.toNat + (ps.take n).length ≤ u.cfg.cap := by rw [List.length_take]; omega
  have run := run_pushall (n := n) turn (by omega) (by omega) (by omega)
  rw [hpos, List.drop_zero, Nat.zero_add] at run
  obtain ⟨out, busy, inbox, other, rest⟩ := turn.ended (u.pushBytes_sameButRing (ps.take n))
    (u.pushBytes_fixed (ps.take n)) (resp .ok (BitVec.ofNat 32 n))
  have held := (State.held_pushallEnd _ n).trans (u.held_pushBytes hfits)
  exact ⟨_, run, held, u.pushBytes_head _, out, busy, inbox, other, rest⟩

/-- Settles O23: the oldest bytes are taken one a step, and then POPALL answers them. -/
theorem popallAloneReturnsTheOldestBytes : Obligations.PopallAloneReturnsTheOldestBytes := by
  unfold Obligations.PopallAloneReturnsTheOldestBytes
  intro s m hs hr ha hb hd
  generalize hn : min m.toNat s.usedCount.toNat = n
  have turn := Turn.of_sent (q := .c) hr ha hb hd nofun
  set u := State.setInbox { s with cur := .c } []
  have hused : u.usedCount.toNat = s.usedCount.toNat := rfl
  have hout : u.popallOut = [] := by
    have hrun : u.running = none := hb
    rw [State.popallOut, hrun]
  have hlen : u.popallOut.length = 0 := by rw [hout, List.length_nil]
  have hheld : n ≤ u.usedCount.toNat := by omega
  have run := run_popall (n := n) turn hheld (by omega) (by omega)
  rw [hout, List.nil_append] at run
  obtain ⟨out, busy, inbox, other, rest⟩ := turn.ended (u.popBytes_sameButRing n) (u.popBytes_fixed n)
    (popallWords (u.held.take n))
  have words : popallWords (u.held.take n) =
      resp .ok (BitVec.ofNat 32 n) ++ (u.held.take n).map fun b => { st := .ok, data := b.setWidth 32 } := by
    rw [popallWords, List.length_take, u.held_length, Nat.min_eq_left hheld]
    rfl
  have held := (State.held_popallEnd _ (u.held.take n)).trans (u.held_popBytes hheld)
  refine ⟨_, run, held, rfl, out.trans ?_, busy, inbox, other, rest⟩
  rw [words, ← List.append_assoc]
  rfl

end Sys2Proof.Machine
end

section
/-! PROOFS. The CRC accumulator's four commands, and ACCUM, which is made of them
(41_checksum.md R122 to R125, R127). -/

namespace Sys2Proof.Machine

/-! ### What each command does on port C -/

section

variable {s : State}

theorem exec_crcinit (hc : s.cur = .c) : exec .crcinit s = .next ((s.setCrc 0xFFFF).respond .ok 0) :=
  congrArg _ (State.onlyC_c hc _)

theorem exec_crcseed (hc : s.cur = .c) (v : Half) : exec (.crcseed v) s = .next ((s.setCrc v).respond .ok 0) :=
  congrArg _ (State.onlyC_c hc _)

theorem exec_crcacc (hc : s.cur = .c) (b : Byte) :
    exec (.crcacc b) s = .next ((s.setCrc (crcUpd s.crc b)).respond .ok (crcUpd s.crc b).word) :=
  congrArg _ (State.onlyC_c hc _)

theorem exec_crcrd (hc : s.cur = .c) : exec .crcrd s = .next (s.respond .ok s.crc.word) :=
  congrArg _ (State.onlyC_c hc _)

end

/-- An answer after a write of the accumulator changes nothing else (41_checksum.md R122 to R124). -/
theorem State.setCrc_respond (s : State) (v : Half) (d : Word) :
    ((s.setCrc v).respond .ok d).crc = v ∧ Answers s ((s.setCrc v).respond .ok d) (resp .ok d) ∧
      SameButCrc s ((s.setCrc v).respond .ok d) := by
  have silent : Unanswered s (s.setCrc v) := .of_ports rfl rfl rfl
  exact ⟨rfl, silent.answers _, (State.respond_onlyAnswers _ _ _).sameButCrc (s.setCrc_sameButCrc v)⟩

/-- Settles O30: three of the commands write the accumulator and answer, and CRCRD is an answer alone. -/
theorem crcRegisterLoadsFoldsAndReads : Obligations.CrcRegisterLoadsFoldsAndReads := by
  unfold Obligations.CrcRegisterLoadsFoldsAndReads
  intro s v b
  refine ⟨rfl, rfl, rfl, rfl, fun hc => ⟨?_, ?_, ?_, ?_⟩⟩
  · exact ⟨_, exec_crcinit hc, s.setCrc_respond _ _⟩
  · exact ⟨_, exec_crcseed hc v, s.setCrc_respond _ _⟩
  · exact ⟨_, exec_crcacc hc b, s.setCrc_respond _ _⟩
  · exact ⟨_, exec_crcrd hc, s.respond_onlyAnswers _ _⟩

/-! ### Bytes folded one after another (41_checksum.md R121) -/

theorem crcAcc_cons (acc : Half) (b : Byte) (bs : List Byte) : crcAcc acc (b :: bs) = crcAcc (crcUpd acc b) bs := rfl

theorem crcAcc_append (acc : Half) (m n : List Byte) : crcAcc acc (m ++ n) = crcAcc (crcAcc acc m) n :=
  List.foldl_append

/-! ### The commands of ACCUM one after another (41_checksum.md R127, 30_encoding.md R84) -/

theorem execAll_cons_of_next {i : Instr} {is : List Instr} {s t : State} (h : exec i s = .next t) :
    execAll (i :: is) s = execAll is t := by
  rw [execAll, h]

theorem SameButCrc.refl (s : State) : SameButCrc s s := s.setCrc_sameButCrc s.crc

theorem SameButCrc.trans {s t u : State} (h : SameButCrc s t) (k : SameButCrc t u) : SameButCrc s u := by
  obtain ⟨h1, h2, h3, h4, h5, h6, h7⟩ := h
  obtain ⟨k1, k2, k3, k4, k5, k6, k7⟩ := k
  exact ⟨h1.trans k1, h2.trans k2, h3.trans k3, h4.trans k4, h5.trans k5, h6.trans k6, h7.trans k7⟩

theorem SameButCrc.cur {s t : State} (h : SameButCrc s t) : t.cur = s.cur := by
  obtain ⟨-, -, -, -, -, -, -, -, cur, -⟩ := h
  exact cur

/-- CRCACCs leave in the accumulator what they have folded, and CRCRD answers it. -/
theorem execAll_crcacc_crcrd {s : State} (bs : List Byte) (hc : s.cur = .c) :
    ∃ t, execAll (bs.map .crcacc ++ [.crcrd]) s = .next t ∧ t.crc = crcAcc s.crc bs ∧
      t.portC.out.getLast? = some { st := .ok, data := (crcAcc s.crc bs).setWidth 32 } ∧ SameButCrc s t := by
  induction bs generalizing s with
  | nil =>
    have answer := s.respond_onlyAnswers .ok s.crc.word
    have ⟨⟨out, _⟩, _⟩ := answer
    rw [hc] at out
    exact ⟨_, execAll_cons_of_next (exec_crcrd hc), rfl, out ▸ List.getLast?_concat, answer.sameButCrc (.refl s)⟩
  | cons b bs ih =>
    obtain ⟨hcrc, -, same⟩ := s.setCrc_respond (crcUpd s.crc b) (crcUpd s.crc b).word
    obtain ⟨t, run, crc, out, rest⟩ := ih (same.cur.trans hc)
    rw [hcrc] at crc out
    exact ⟨t, (execAll_cons_of_next (exec_crcacc hc b)).trans run, crc, out, same.trans rest⟩

/-- Settles O33: ACCUM folds the concatenation, and a fold over it is the fold over the second part from the first. -/
theorem accumIsIncremental : Obligations.AccumIsIncremental := by
  unfold Obligations.AccumIsIncremental
  intro s seed m n hc
  obtain ⟨-, -, same⟩ := s.setCrc_respond seed 0
  obtain ⟨t, run, crc, out, rest⟩ := execAll_crcacc_crcrd (m ++ n) (same.cur.trans hc)
  obtain ⟨ring, frame, session, parser, -⟩ := same.trans rest
  rw [← crcAcc_append]
  exact ⟨t, (execAll_cons_of_next (exec_crcseed hc seed)).trans run, crc, out, ring, frame, session, parser⟩

end Sys2Proof.Machine
end

section
/-! PROOFS. CRC16: one atomic part, and the whole command alone (41_checksum.md R126, 20_memory.md R58). -/

namespace Sys2Proof.Machine

/-- CRC16 goes on while a payload byte is left. -/
theorem exec_crc16_of_left {s : State} {ps : List Byte} {b : Byte} (hc : s.cur = .c)
    (hb : ps[s.crc16Position.1]? = some b) : exec (.crc16 ps) s =
      .next (s.setRunning (some (.crc16 ps (s.crc16Position.1 + 1) (crcUpd s.crc16Position.2 b)))) := by
  rw [exec, execCrc16, State.onlyC_c hc, hb]

/-- CRC16 ends with no byte left. -/
theorem exec_crc16_of_done {s : State} {ps : List Byte} (hc : s.cur = .c) (h : ps.length ≤ s.crc16Position.1) :
    exec (.crc16 ps) s = .next ((s.setRunning none).respond .ok s.crc16Position.2.word) := by
  rw [exec, execCrc16, State.onlyC_c hc, List.getElem?_eq_none h]

/-- Settles O31: a part is progress alone, or the end of the command. -/
theorem crcSixteenFoldsOneByteAPart : Obligations.CrcSixteenFoldsOneByteAPart := by
  unfold Obligations.CrcSixteenFoldsOneByteAPart
  refine fun ps s => ⟨rfl, fun hc => ⟨fun b hb => ?_, fun h => ?_⟩⟩
  · obtain ⟨rest, ring, answer⟩ := s.setRunning_sameButRingAndBusy
      (some (.crc16 ps (s.crc16Position.1 + 1) (crcUpd s.crc16Position.2 b)))
    exact ⟨_, exec_crc16_of_left hc hb, State.busy_of_running_c (State.running_setRunning _ _) hc, answer, ring, rest⟩
  · obtain ⟨idle, rest⟩ := s.finish_onlyAnswers (resp .ok s.crc16Position.2.word)
    exact ⟨_, exec_crc16_of_done hc h, State.busy_of_running_c idle hc, rest⟩

@[simp] theorem State.crc16Position_setRunning (s : State) (ps : List Byte) (n : Nat) (acc : Half) :
    (s.setRunning (some (.crc16 ps n acc))).crc16Position = (n, acc) := by
  rw [State.crc16Position, State.running_setRunning]

theorem SameFixed.refl (s : State) : SameFixed s s := by constructor <;> rfl

theorem SameButRing.refl (s : State) : SameButRing s s :=
  ⟨rfl, ⟨rfl, fun _ => rfl⟩, ⟨rfl, rfl, rfl, rfl⟩, ⟨rfl, rfl⟩, fun _ => rfl, rfl,
    ⟨rfl, fun _ => rfl, rfl, rfl, rfl, rfl, rfl⟩⟩

/-- CRC16 alone folds one byte a step while one is left, and then answers its private accumulator. -/
theorem run_crc16 {ps : List Byte} {n : Nat} {s u : State} (h : Turn .c (.crc16 ps) s u)
    (hn : u.crc16Position.1 + n = ps.length) :
    Host.Core.run Sys2Proof.core (n + 1) s = .next ((u.setRunning none).respond .ok
      (crcAcc u.crc16Position.2 (ps.drop u.crc16Position.1)).word) := by
  induction n generalizing s u with
  | zero =>
    have hend : ps.length ≤ u.crc16Position.1 := hn.ge
    rw [List.drop_of_length_le hend]
    exact run_succ_of_step (M := Sys2Proof.core) 0 (h.runs.trans (exec_crc16_of_done h.cur hend))
  | succ n ih =>
    have hlt : u.crc16Position.1 < ps.length := by omega
    have hstep := h.runs.trans (exec_crc16_of_left h.cur (List.getElem?_eq_getElem hlt))
    have run := ih (h.goOn (SameFixed.refl u)
      (r := .crc16 ps (u.crc16Position.1 + 1) (crcUpd u.crc16Position.2 ps[u.crc16Position.1])) rfl)
    rw [State.crc16Position_setRunning, State.setRunning_setRunning] at run
    rw [List.drop_eq_getElem_cons hlt, crcAcc_cons]
    exact (run_succ_of_step (M := Sys2Proof.core) _ hstep).trans (run (by omega))

/-- Settles O32: every payload byte is folded from the initial value, one a step, and the sum is answered. -/
theorem crcSixteenAloneAnswersTheChecksum : Obligations.CrcSixteenAloneAnswersTheChecksum := by
  unfold Obligations.CrcSixteenAloneAnswersTheChecksum
  intro s ps hr ha hb hd
  have turn := Turn.of_sent (q := .c) hr ha hb hd nofun
  set u := State.setInbox { s with cur := .c } []
  have hpos : u.crc16Position = (0, 0xFFFF) := by
    have hrun : u.running = none := hb
    rw [State.crc16Position, hrun]
  have run := run_crc16 (n := ps.length) turn (by rw [hpos, Nat.zero_add])
  rw [hpos, List.drop_zero] at run
  obtain ⟨out, busy, inbox, other, rest⟩ := turn.ended (.refl u) (.refl u) (resp .ok (crc16 ps).word)
  exact ⟨_, run, out, busy, inbox, other, ⟨fun _ => rfl, rfl, rfl⟩, rest⟩

end Sys2Proof.Machine
end

section
/-! PROOFS. The residue of the checksum (41_checksum.md R128). -/

namespace Sys2Proof.Machine

/-- The polynomial is folded in only for a bit that is set: clear low bits are shifted out and nothing else happens. -/
theorem crcShifts_of_low_clear {n : Nat} {s : Half} (h : ∀ i < n, s.getLsbD i = false) : crcShifts n s = s >>> n := by
  induction n generalizing s with
  | zero => exact (BitVec.ushiftRight_zero s).symm
  | succ n ih =>
    have hshift : crcShift s = s >>> 1 := by rw [crcShift, h 0 n.succ_pos, if_neg Bool.false_ne_true]
    have hclear : ∀ i < n, (s >>> 1).getLsbD i = false := fun i hi => by
      rw [BitVec.getLsbD_ushiftRight]
      exact h (1 + i) (by omega)
    rw [crcShifts, hshift, ih hclear, ← BitVec.shiftRight_add, Nat.add_comm]

/-- Folding in the accumulator's own low byte cancels it, and the high byte moves down. -/
theorem crcUpd_low_byte (s : Half) : crcUpd s (s.extractLsb' 0 8) = s >>> 8 := by
  have hclear : ∀ i < 8, (s ^^^ (s.extractLsb' 0 8).setWidth 16).getLsbD i = false := fun i hi => by
    simp [hi, Nat.lt_trans hi (by decide : 8 < 16)]
  rw [crcUpd, crcShifts_of_low_clear hclear]
  ext i hi
  simp

/-- Settles O34: each byte of the checksum cancels the low byte of the accumulator, and two shifts by a byte leave
nothing. -/
theorem checksumResidueIsZero : Obligations.ChecksumResidueIsZero := by
  unfold Obligations.ChecksumResidueIsZero
  intro m
  generalize hs : crc16 m = s
  have hhigh : s.extractLsb' 8 8 = (s >>> 8).extractLsb' 0 8 := by
    ext i hi; simp
  calc crc16 (m ++ [s.extractLsb' 0 8, s.extractLsb' 8 8])
    _ = crcUpd (crcUpd s (s.extractLsb' 0 8)) (s.extractLsb' 8 8) := by
      rw [crc16, crcAcc_append, ← crc16, hs, crcAcc_cons, crcAcc_cons]; rfl
    _ = s >>> 8 >>> 8 := by rw [crcUpd_low_byte, hhigh, crcUpd_low_byte]
    _ = 0 := by rw [← BitVec.shiftRight_add]; exact BitVec.ushiftRight_eq_zero (by decide)

end Sys2Proof.Machine
end

section
/-! PROOFS. The arms of `step(b)`, and STEP in each parser state (42_frame_parser.md R131 to R150). -/

namespace Sys2Proof.Machine

/-! ### The arms of `step(b)`, each under its guard -/

section

variable {s : State}

theorem State.parse_of_no_mark (hq : s.pstate = .awaitMark) {b : Byte} (hb : b ≠ 0x7E) :
    s.parse b = (s, .incomplete) := by
  rw [State.parse, hq]
  exact if_neg hb

theorem State.parse_mark (hq : s.pstate = .awaitMark) :
    s.parse 0x7E = s.record .mark 0x7E (afterMark s.cfg.profile) := by
  rw [State.parse, hq]
  exact if_pos rfl

/-- A fixed field takes any byte (42_frame_parser.md R135 to R139, R146, R148). -/
theorem State.parse_of_fixedField {r : FReg} {n : PState} (h : fixedField s.pstate = some (r, n)) (b : Byte) :
    s.parse b = s.record r b n := by
  rw [State.parse]
  cases hq : s.pstate <;> rw [hq] at h <;> cases h <;> rfl

theorem State.parse_checksumHigh_of_trailer (hq : s.pstate = .awaitChecksumHigh) (hp : s.cfg.profile = .trailer)
    (b : Byte) : s.parse b = ((s.setF .ckhi b).goto .awaitMark, .complete) := by
  rw [State.parse, hq, State.parseChecksumHigh, hp]

theorem State.parse_checksumHigh_of_header (hq : s.pstate = .awaitChecksumHigh) (hp : s.cfg.profile = .header)
    (b : Byte) : s.parse b = s.record .ckhi b .awaitCalc := by
  rw [State.parse, hq, State.parseChecksumHigh, hp]

theorem State.parse_len_of_raw (hq : s.pstate = .awaitLen) (hm : s.cfg.lenMode = .raw) (b : Byte) :
    s.parse b = s.recordLen b := by
  rw [State.parse, hq, State.parseLen, hm]

theorem State.parse_len_of_no_digit (hq : s.pstate = .awaitLen) (hm : s.cfg.lenMode = .ascii) {b : Byte}
    (hb : hexval b = none) : s.parse b = s.parseFail .invalidAsciiDigit := by
  rw [State.parse, hq, State.parseLen, hm, hb]

theorem State.parse_len_of_digit (hq : s.pstate = .awaitLen) (hm : s.cfg.lenMode = .ascii) {b d : Byte}
    (hb : hexval b = some d) : s.parse b = s.recordLen d := by
  rw [State.parse, hq, State.parseLen, hm, hb]

theorem State.parse_value_of_overlong (hq : s.pstate = .awaitValue) (hl : s.cfg.vcap < s.frame.len.toNat) (b : Byte) :
    s.parse b = s.parseFail .frameOverflow := by
  rw [State.parse, hq, State.parseValue, s.lenFits_false_iff.2 hl]
  rfl

/-- A value byte before the last (42_frame_parser.md R143). -/
theorem State.parse_value_of_more (hq : s.pstate = .awaitValue) (hl : s.frame.len.toNat ≤ s.cfg.vcap)
    (hn : s.byteCnt + 1 ≠ s.frame.len) (b : Byte) :
    s.parse b = ((s.valWrite s.byteCnt.toNat b).setByteCnt (s.byteCnt + 1), .incomplete) := by
  rw [State.parse, hq, State.parseValue, s.lenFits_iff.2 hl, if_pos rfl, if_neg hn]

/-- The last value byte (42_frame_parser.md R143, R145). -/
theorem State.parse_value_of_last (hq : s.pstate = .awaitValue) (hl : s.frame.len.toNat ≤ s.cfg.vcap)
    (hn : s.byteCnt + 1 = s.frame.len) (b : Byte) :
    s.parse b = ((s.valWrite s.byteCnt.toNat b).setByteCnt 0).afterValue := by
  rw [State.parse, hq, State.parseValue, s.lenFits_iff.2 hl, if_pos rfl, if_pos hn]

theorem State.afterValue_of_trailer (hp : s.cfg.profile = .trailer) :
    s.afterValue = (s.goto .awaitChecksumLow, .incomplete) := by
  rw [State.afterValue, hp]

theorem State.afterValue_of_not_trailer (hp : s.cfg.profile ≠ .trailer) :
    s.afterValue = (s.goto .awaitMark, .complete) := by
  rcases s.afterValue_cases with ⟨h, -⟩ | ⟨-, h⟩
  · exact absurd h hp
  · exact h

end

theorem State.setF_oneRegister (s : State) (r : FReg) (b : Byte) : OneRegister s (s.setF r b) r b :=
  ⟨s.frame.get_set_self r b, fun _ hx => s.frame.get_set_ne b hx⟩

/-! ### STEP: the parser's step and its answer (42_frame_parser.md R131) -/

/-- What STEP answers for a result of the parser (30_encoding.md R75, R76). -/
def parseAnswer : ParseResult → List Resp
  | .incomplete => resp .incomplete 0
  | .complete => resp .complete 0
  | .error c => resp .error c.code

/-- STEP on port C is the parser's step and the answer, which touch nothing outside the link. -/
theorem exec_step {s : State} {b : Byte} {t : State} {x : ParseResult} (hc : s.cur = .c) (h : s.parse b = (t, x)) :
    exec (.step b) s = .next (t.respondAll (parseAnswer x)) ∧
      Answers s (t.respondAll (parseAnswer x)) (parseAnswer x) ∧ SameButLink s (t.respondAll (parseAnswer x)) := by
  have outside := s.parse_outside b
  rw [h] at outside
  refine ⟨?_, outside.fixed.unanswered.answers _,
    (t.respondAll_onlyAnswers (parseAnswer x)).sameButLink outside.sameButLink⟩
  rw [exec, execStep, State.onlyC_c hc, h]
  cases x <;> rfl

/-- The parser finds no wrong checksum: it never verifies (42_frame_parser.md R131). -/
theorem State.parse_ne_checksumMismatch (s : State) (b : Byte) : (s.parse b).2 ≠ .error .checksumMismatch := by
  rcases s.parse_error_cases b with ⟨h | h, -⟩ | ⟨h, -⟩
  · rw [h]; nofun
  · rw [h]; nofun
  · exact h _

/-- Settles O36: STEP is the parser's step and its answer, and the parser never reports a wrong checksum. -/
theorem stepReportsTheParserResult : Obligations.StepReportsTheParserResult := by
  unfold Obligations.StepReportsTheParserResult
  refine fun b s => ⟨rfl, fun hc => ?_⟩
  have outside := s.parse_outside b
  have unverified := s.parse_ne_checksumMismatch b
  generalize h : s.parse b = p at outside unverified ⊢
  obtain ⟨t, x⟩ := p
  obtain ⟨run, answer, link⟩ := exec_step hc h
  refine ⟨_, run, rfl, fun _ => rfl, rfl, rfl, rfl, outside.validCount, outside.lastSeqRx, outside.lastSeqTx, ?_,
    unverified, link⟩
  rcases x with _ | _ | _ | _ | _ <;> exact answer

/-! ### Recorded fields (42_frame_parser.md R133 to R139, R146 to R148) -/

/-- A byte that one register takes is recorded there, and only the parser state moves beside it. -/
theorem exec_step_recorded {s : State} {b : Byte} {r : FReg} {n : PState} {x : ParseResult} (hc : s.cur = .c)
    (h : s.parse b = ((s.setF r b).goto n, x)) :
    ∃ t, exec (.step b) s = .next t ∧ OneRegister s t r b ∧ t.pstate = n ∧ t.byteCnt = s.byteCnt ∧ SameValue s t ∧
      SameSession s t ∧ Answers s t (parseAnswer x) ∧ SameButLink s t := by
  obtain ⟨run, answer, link⟩ := exec_step hc h
  exact ⟨_, run, s.setF_oneRegister r b, rfl, rfl, fun _ => rfl, ⟨rfl, rfl, rfl, rfl⟩, answer, link⟩

/-- Settles O37: a byte that is no mark is answered alone, and the mark is recorded. -/
theorem onlyTheMarkStartsAFrame : Obligations.OnlyTheMarkStartsAFrame := by
  unfold Obligations.OnlyTheMarkStartsAFrame
  intro b s hc hq
  constructor
  · intro hb
    exact ⟨_, (exec_step hc (State.parse_of_no_mark hq hb)).1, s.respondAll_onlyAnswers _⟩
  · rintro rfl
    obtain ⟨t, run, reg, next, rest⟩ := exec_step_recorded hc (State.parse_mark hq)
    exact ⟨t, run, reg, next.trans (by cases s.cfg.profile <;> rfl), rest⟩

/-- Settles O38: each row is a fixed field of the parser. -/
theorem fixedFieldsAreRecorded : Obligations.FixedFieldsAreRecorded := by
  unfold Obligations.FixedFieldsAreRecorded
  intro b s q n r hrow hc hq _
  have field : fixedField q = some (r, n) := by
    refine (?_ : ∀ row ∈ (_ : List (PState × FReg × PState)), fixedField row.1 = some row.2) _ hrow
    decide
  exact exec_step_recorded hc (State.parse_of_fixedField (hq ▸ field) b)

/-- Settles O39: the checksum's high byte is recorded under both profiles, and completes the frame under TRAILER. -/
theorem checksumHighCompletesTrailerFrames : Obligations.ChecksumHighCompletesTrailerFrames := by
  unfold Obligations.ChecksumHighCompletesTrailerFrames
  intro b s hc hq hp
  cases hprof : s.cfg.profile
  case trailer =>
    obtain ⟨t, run, reg, next, cnt, value, session, answer, link⟩ :=
      exec_step_recorded hc (State.parse_checksumHigh_of_trailer hq hprof b)
    exact ⟨t, run, reg, cnt, value, session, link, fun _ => ⟨next, answer⟩, nofun⟩
  case header =>
    obtain ⟨t, run, reg, next, cnt, value, session, answer, link⟩ :=
      exec_step_recorded hc (State.parse_checksumHigh_of_header hq hprof b)
    exact ⟨t, run, reg, cnt, value, session, link, nofun, fun _ => ⟨next, answer⟩⟩
  case pkt => exact absurd hprof hp

/-! ### Failed frames (42_frame_parser.md R149) -/

/-- A frame that fails counts one error and leaves the parser in AwaitMark, and the Frame as it was. -/
theorem exec_step_failed {s : State} {b : Byte} {c : Cause} (hc : s.cur = .c) (h : s.parse b = s.parseFail c) :
    ∃ t, exec (.step b) s = .next t ∧ SameFrame s t ∧ t.pstate = .awaitMark ∧ t.byteCnt = 0 ∧
      t.errorCount = s.errorCount + 1 ∧ t.validCount = s.validCount ∧ t.lastSeqRx = s.lastSeqRx ∧
      t.lastSeqTx = s.lastSeqTx ∧ Answers s t (resp .error c.code) ∧ SameButLink s t := by
  obtain ⟨run, answer, link⟩ := exec_step hc h
  exact ⟨_, run, ⟨rfl, fun _ => rfl⟩, rfl, rfl, rfl, rfl, rfl, rfl, answer, link⟩

/-- Settles O43: a frame longer than the buffer fails on its first value byte. -/
theorem overlongFrameIsRejected : Obligations.OverlongFrameIsRejected := by
  unfold Obligations.OverlongFrameIsRejected
  intro b s hc hq hl
  exact exec_step_failed hc (State.parse_value_of_overlong hq hl b)

/-! ### The length (42_frame_parser.md R140 to R142, R150) -/

/-- A length that is accepted is recorded, and it and the profile say where the frame goes. -/
theorem exec_step_length {s : State} {b d : Byte} (hc : s.cur = .c) (h : s.parse b = s.recordLen d) :
    ∃ t, exec (.step b) s = .next t ∧ OneRegister s t .len d ∧ t.byteCnt = 0 ∧ SameValue s t ∧ SameSession s t ∧
      SameButLink s t ∧
      (d ≠ 0 → t.pstate = .awaitValue ∧ Answers s t (resp .incomplete 0)) ∧
      (d = 0 → s.cfg.profile = .trailer → t.pstate = .awaitChecksumLow ∧ Answers s t (resp .incomplete 0)) ∧
      (d = 0 → s.cfg.profile ≠ .trailer → t.pstate = .awaitMark ∧ Answers s t (resp .complete 0)) := by
  have reg := s.setF_oneRegister .len d
  rcases s.recordLen_cases d with ⟨hd, e⟩ | ⟨hd, hp, e⟩ | ⟨hd, hp, e⟩ <;>
    obtain ⟨run, answer, link⟩ := exec_step hc (h.trans e)
  · exact ⟨_, run, reg, rfl, fun _ => rfl, ⟨rfl, rfl, rfl, rfl⟩, link, fun _ => ⟨rfl, answer⟩,
      fun h0 => absurd h0 hd, fun h0 => absurd h0 hd⟩
  · exact ⟨_, run, reg, rfl, fun _ => rfl, ⟨rfl, rfl, rfl, rfl⟩, link, fun h0 => absurd hd h0,
      fun _ _ => ⟨rfl, answer⟩, fun _ h0 => absurd hp h0⟩
  · exact ⟨_, run, reg, rfl, fun _ => rfl, ⟨rfl, rfl, rfl, rfl⟩, link, fun h0 => absurd hd h0,
      fun _ h0 => absurd h0 hp, fun _ _ => ⟨rfl, answer⟩⟩

/-- Settles O40: a raw length byte is the length. -/
theorem rawLengthIsRecorded : Obligations.RawLengthIsRecorded := by
  unfold Obligations.RawLengthIsRecorded
  intro b s hc hq hm
  exact exec_step_length hc (State.parse_len_of_raw hq hm b)

/-- The digit table, as numbers (42_frame_parser.md R150). -/
theorem hexval_toNat (b : Byte) : (hexval b).map BitVec.toNat =
    if 0x30 ≤ b.toNat ∧ b.toNat ≤ 0x39 then some (b.toNat - 0x30)
    else if 0x41 ≤ b.toNat ∧ b.toNat ≤ 0x46 then some (b.toNat - 0x41 + 10)
    else if 0x61 ≤ b.toNat ∧ b.toNat ≤ 0x66 then some (b.toNat - 0x61 + 10)
    else none := by
  unfold hexval
  split_ifs
  · exact congrArg some (by bv_omega)
  · exact congrArg some (by bv_omega)
  · exact congrArg some (by bv_omega)
  · rfl

/-- Settles O41: a digit is the length it stands for, under PKT alone (00_scope.md R9), and any other byte fails the
frame. -/
theorem asciiLengthIsConvertedOrFails : Obligations.AsciiLengthIsConvertedOrFails := by
  unfold Obligations.AsciiLengthIsConvertedOrFails
  refine fun b s => ⟨hexval_toNat b, fun hc hq hm => ⟨fun hb => ?_, fun d hb => ?_⟩⟩
  · exact exec_step_failed hc (State.parse_len_of_no_digit hq hm hb)
  · have hp : s.cfg.profile ≠ .trailer := by rw [s.cfg.ascii_pkt hm]; nofun
    obtain ⟨t, run, reg, cnt, value, session, link, more, -, done⟩ :=
      exec_step_length hc (State.parse_len_of_digit hq hm hb)
    exact ⟨t, run, reg, cnt, value, session, link, more, fun hd => done hd hp⟩

/-! ### The value (42_frame_parser.md R143, R145) -/

/-- Settles O42: the byte is stored, and whether it is the last one and the profile say where the frame goes. -/
theorem valueByteIsStored : Obligations.ValueByteIsStored := by
  unfold Obligations.ValueByteIsStored
  intro b s hc hq hl
  have stored : (s.valWrite s.byteCnt.toNat b).valRead s.byteCnt.toNat = b := by
    rw [State.valRead_valWrite, if_pos rfl]
  have kept : ∀ a, a ≠ s.byteCnt.toNat → (s.valWrite s.byteCnt.toNat b).valRead a = s.valRead a := fun a ha => by
    rw [State.valRead_valWrite, if_neg ha]
  by_cases hn : s.byteCnt + 1 = s.frame.len
  · have last := State.parse_value_of_last hq hl hn b
    by_cases hp : s.cfg.profile = .trailer
    · obtain ⟨run, answer, link⟩ := exec_step hc (last.trans (State.afterValue_of_trailer hp))
      exact ⟨_, run, rfl, stored, kept, ⟨rfl, rfl, rfl, rfl⟩, link, fun h => absurd hn h,
        fun _ => ⟨rfl, fun _ => ⟨rfl, answer⟩, fun h => absurd hp h⟩⟩
    · obtain ⟨run, answer, link⟩ := exec_step hc (last.trans (State.afterValue_of_not_trailer hp))
      exact ⟨_, run, rfl, stored, kept, ⟨rfl, rfl, rfl, rfl⟩, link, fun h => absurd hn h,
        fun _ => ⟨rfl, fun h => absurd h hp, fun _ => ⟨rfl, answer⟩⟩⟩
  · obtain ⟨run, answer, link⟩ := exec_step hc (State.parse_value_of_more hq hl hn b)
    exact ⟨_, run, rfl, stored, kept, ⟨rfl, rfl, rfl, rfl⟩, link, fun _ => ⟨hq, rfl, answer⟩, fun h => absurd h hn⟩

end Sys2Proof.Machine
end

section
/-! PROOFS. A whole PKT frame with a raw length (42_frame_parser.md R153, R156): the header, the length and the value, each
fed to STEP byte by byte. -/

namespace Sys2Proof.Machine

/-- STEP over the bytes `bs` leads from `s` to `t`, answers `rs`, and touches neither the session counters nor anything
outside the link. -/
structure Feeds (s : State) (bs : List Byte) (rs : List Resp) (t : State) : Prop where
  run : execAll (bs.map .step) s = .next t
  answers : Answers s t rs
  session : SameSession s t
  link : SameButLink s t

theorem SameButLink.trans {s t u : State} (h : SameButLink s t) (k : SameButLink t u) : SameButLink s u := by
  obtain ⟨h1, h2, h3, h4, h5⟩ := h
  obtain ⟨k1, k2, k3, k4, k5⟩ := k
  exact ⟨h1.trans k1, h2.trans k2, h3.trans k3, h4.trans k4, h5.trans k5⟩

theorem SameButLink.cfg {s t : State} (h : SameButLink s t) : t.cfg = s.cfg := by
  obtain ⟨-, -, -, -, cfg, -⟩ := h
  exact cfg

theorem SameButLink.cur {s t : State} (h : SameButLink s t) : t.cur = s.cur := by
  obtain ⟨-, -, -, -, -, -, cur, -⟩ := h
  exact cur

theorem Answers.trans {s t u : State} {rs rs' : List Resp} (h : Answers s t rs) (k : Answers t u rs')
    (hc : t.cur = s.cur) : Answers s u (rs ++ rs') := by
  obtain ⟨h1, h2⟩ := h
  obtain ⟨k1, k2⟩ := k
  rw [hc] at k1 k2
  exact ⟨by rw [k1, h1, List.append_assoc], k2.trans h2⟩

theorem execAll_append_of_next {is js : List Instr} {s t : State} (h : execAll is s = .next t) :
    execAll (is ++ js) s = execAll js t := by
  induction is generalizing s with
  | nil => cases h; rfl
  | cons i is ih =>
    rw [execAll] at h
    rw [List.cons_append, execAll]
    split at h
    · exact ih h
    · cases h
    · cases h

namespace Feeds

variable {s t u : State} {bs cs : List Byte} {rs qs : List Resp}

theorem trans (h : Feeds s bs rs t) (k : Feeds t cs qs u) : Feeds s (bs ++ cs) (rs ++ qs) u where
  run := by rw [List.map_append, execAll_append_of_next h.run, k.run]
  answers := h.answers.trans k.answers h.link.cur
  session := h.session.trans k.session
  link := h.link.trans k.link

/-- One byte, which the parser does not fail on. -/
theorem byte {b : Byte} {x : ParseResult} (hc : s.cur = .c) (h : s.parse b = (t, x)) (hs : SameSession s t) :
    Feeds s [b] (parseAnswer x) (t.respondAll (parseAnswer x)) := by
  obtain ⟨run, answer, link⟩ := exec_step hc h
  exact ⟨execAll_cons_of_next run, answer, hs, link⟩

/-- One byte more, of a fixed field. -/
theorem field (h : Feeds s bs rs t) (hc : s.cur = .c) {r : FReg} {n : PState}
    (hf : fixedField t.pstate = some (r, n)) (b : Byte) :
    Feeds s (bs ++ [b]) (rs ++ resp .incomplete 0) (((t.setF r b).goto n).respondAll (resp .incomplete 0)) :=
  h.trans (byte (h.link.cur.trans hc) (State.parse_of_fixedField hf b) ⟨rfl, rfl, rfl, rfl⟩)

end Feeds

/-- The eight bytes in front of the length, each answered INCOMPLETE and kept in its register. -/
theorem feeds_pkt_header {s : State} (hc : s.cur = .c) (hp : s.cfg.profile = .pkt) (hq : s.pstate = .awaitMark)
    (r0 r1 r2 sq sy dv tg : Byte) :
    ∃ t, Feeds s [0x7E, r0, r1, r2, sq, sy, dv, tg] (List.replicate 8 { st := .incomplete, data := 0 }) t ∧
      t.pstate = .awaitLen ∧
      t.frame = { s.frame with mark := 0x7E, resv0 := r0, resv1 := r1, resv2 := r2, seq := sq, sys := sy, dev := dv,
                               tag := tg } := by
  have parsed := State.parse_mark hq
  rw [hp] at parsed
  have mark := Feeds.byte hc parsed ⟨rfl, rfl, rfl, rfl⟩
  have reserved := ((mark.field hc rfl r0).field hc rfl r1).field hc rfl r2
  have header := (((reserved.field hc rfl sq).field hc rfl sy).field hc rfl dv).field hc rfl tg
  exact ⟨_, header, rfl, rfl⟩

/-- A raw length that announces a value. -/
theorem feeds_length {s : State} (hc : s.cur = .c) (hm : s.cfg.lenMode = .raw) (hq : s.pstate = .awaitLen) {b : Byte}
    (hb : b ≠ 0) :
    ∃ t, Feeds s [b] (resp .incomplete 0) t ∧ t.pstate = .awaitValue ∧ t.byteCnt = 0 ∧
      t.frame = { s.frame with len := b } := by
  rcases s.recordLen_cases b with ⟨-, e⟩ | ⟨h, -⟩ | ⟨h, -⟩
  · exact ⟨_, .byte hc ((State.parse_len_of_raw hq hm b).trans e) ⟨rfl, rfl, rfl, rfl⟩, rfl, rfl, rfl⟩
  · exact absurd h hb
  · exact absurd h hb

/-- A raw length of zero, which ends a frame that carries no checksum. -/
theorem feeds_length_zero {s : State} (hc : s.cur = .c) (hm : s.cfg.lenMode = .raw) (hq : s.pstate = .awaitLen)
    (hp : s.cfg.profile ≠ .trailer) :
    ∃ t, Feeds s [0] (resp .complete 0) t ∧ t.pstate = .awaitMark ∧ t.byteCnt = 0 ∧
      t.frame = { s.frame with len := 0 } := by
  rcases s.recordLen_cases 0 with ⟨h, -⟩ | ⟨-, h, -⟩ | ⟨-, -, e⟩
  · exact absurd rfl h
  · exact absurd h hp
  · exact ⟨_, .byte hc ((State.parse_len_of_raw hq hm 0).trans e) ⟨rfl, rfl, rfl, rfl⟩, rfl, rfl, rfl⟩

theorem State.valueBytes_valWrite (s : State) (n : Nat) (b : Byte) :
    (s.valWrite n b).valueBytes (n + 1) = s.valueBytes n ++ [b] := by
  have before : (s.valWrite n b).valueBytes n = s.valueBytes n :=
    List.map_congr_left fun a ha => by rw [State.valRead_valWrite, if_neg (List.mem_range.1 ha).ne]
  have last : (s.valWrite n b).valRead n = b := by rw [State.valRead_valWrite, if_pos rfl]
  rw [State.valueBytes, List.range_succ, List.map_append, List.map_singleton, last]
  exact congrArg (· ++ [b]) before

/-- A value byte before the last is stored behind those already collected. -/
theorem feeds_value_more {s : State} (hc : s.cur = .c) (hq : s.pstate = .awaitValue)
    (hfit : s.frame.len.toNat ≤ s.cfg.vcap) (hn : s.byteCnt + 1 ≠ s.frame.len) (b : Byte) :
    ∃ t, Feeds s [b] (resp .incomplete 0) t ∧ t.pstate = .awaitValue ∧ t.byteCnt = s.byteCnt + 1 ∧
      t.frame = s.frame ∧ t.valueBytes (s.byteCnt.toNat + 1) = s.valueBytes s.byteCnt.toNat ++ [b] :=
  ⟨_, .byte hc (State.parse_value_of_more hq hfit hn b) ⟨rfl, rfl, rfl, rfl⟩, hq, rfl, rfl,
    s.valueBytes_valWrite _ b⟩

/-- The last value byte is stored behind the others, and completes a frame that carries no checksum behind it. -/
theorem feeds_value_last {s : State} (hc : s.cur = .c) (hp : s.cfg.profile ≠ .trailer) (hq : s.pstate = .awaitValue)
    (hfit : s.frame.len.toNat ≤ s.cfg.vcap) (hn : s.byteCnt + 1 = s.frame.len) (b : Byte) :
    ∃ t, Feeds s [b] (resp .complete 0) t ∧ t.pstate = .awaitMark ∧ t.byteCnt = 0 ∧ t.frame = s.frame ∧
      t.valueBytes (s.byteCnt.toNat + 1) = s.valueBytes s.byteCnt.toNat ++ [b] :=
  ⟨_, .byte hc ((State.parse_value_of_last hq hfit hn b).trans (State.afterValue_of_not_trailer hp))
    ⟨rfl, rfl, rfl, rfl⟩, rfl, rfl, rfl, s.valueBytes_valWrite _ b⟩

/-- The rest of a value that fits, of at least one byte: only its last byte completes the frame, and the value is what
was collected before and these bytes. -/
theorem feeds_value {s : State} (b : Byte) (v : List Byte) (hc : s.cur = .c) (hp : s.cfg.profile ≠ .trailer)
    (hq : s.pstate = .awaitValue) (hfit : s.frame.len.toNat ≤ s.cfg.vcap)
    (hlen : s.byteCnt.toNat + v.length + 1 = s.frame.len.toNat) :
    ∃ t, Feeds s (b :: v) (List.replicate v.length { st := .incomplete, data := 0 } ++ resp .complete 0) t ∧
      t.pstate = .awaitMark ∧ t.byteCnt = 0 ∧ t.frame = s.frame ∧
      t.valueBytes s.frame.len.toNat = s.valueBytes s.byteCnt.toNat ++ b :: v := by
  induction v generalizing s b with
  | nil =>
    have hlt := s.frame.len.isLt
    have hn : s.byteCnt + 1 = s.frame.len := by rw [List.length_nil] at hlen; bv_omega
    rw [← hlen]
    exact feeds_value_last hc hp hq hfit hn b
  | cons b' v ih =>
    rw [List.length_cons] at hlen
    have hlt := s.frame.len.isLt
    have hn : s.byteCnt + 1 ≠ s.frame.len := by bv_omega
    have hcnt : (s.byteCnt + 1).toNat = s.byteCnt.toNat + 1 := by bv_omega
    obtain ⟨t, first, tq, tcnt, tf, tv⟩ := feeds_value_more hc hq hfit hn b
    have tcfg := first.link.cfg
    rw [← hcnt, ← tcnt] at tv
    rw [← tcfg] at hp hfit
    rw [← tf] at hfit hlen
    have tlen : t.byteCnt.toNat + v.length + 1 = t.frame.len.toNat := by rw [tcnt, hcnt, ← hlen]; omega
    obtain ⟨u, rest, uq, ucnt, uf, uv⟩ := ih b' (first.link.cur.trans hc) hp tq hfit tlen
    rw [tf, tv, List.append_assoc] at uv
    exact ⟨u, first.trans rest, uq, ucnt, uf.trans tf, uv⟩

/-- A raw length and a value of as many bytes: only the last byte completes the frame. -/
theorem feeds_length_value {s : State} (hc : s.cur = .c) (hp : s.cfg.profile ≠ .trailer) (hm : s.cfg.lenMode = .raw)
    (hq : s.pstate = .awaitLen) (v : List Byte) (hv : v.length ≤ s.cfg.vcap) :
    ∃ t, Feeds s (BitVec.ofNat 8 v.length :: v)
        (List.replicate v.length { st := .incomplete, data := 0 } ++ resp .complete 0) t ∧
      t.pstate = .awaitMark ∧ t.byteCnt = 0 ∧ t.frame = { s.frame with len := BitVec.ofNat 8 v.length } ∧
      t.valueBytes v.length = v := by
  have hn : (BitVec.ofNat 8 v.length).toNat = v.length :=
    Nat.mod_eq_of_lt (Nat.lt_succ_of_le (hv.trans s.cfg.vcap_le))
  cases v with
  | nil =>
    obtain ⟨t, zero, tq, tcnt, tf⟩ := feeds_length_zero hc hm hq hp
    exact ⟨t, zero, tq, tcnt, tf, rfl⟩
  | cons b v =>
    have hne : BitVec.ofNat 8 (b :: v).length ≠ 0 := fun h => by rw [h] at hn; cases hn
    obtain ⟨t, length, tq, tcnt, tf⟩ := feeds_length hc hm hq hne
    have tlen : t.frame.len.toNat = (b :: v).length := by rw [tf, hn]
    have tzero : t.byteCnt.toNat = 0 := by rw [tcnt]; rfl
    rw [← length.link.cfg] at hp hv
    obtain ⟨u, value, uq, ucnt, uf, uv⟩ := feeds_value b v (length.link.cur.trans hc) hp tq (tlen ▸ hv)
      (by rw [tzero, tlen, Nat.zero_add, List.length_cons])
    rw [tlen, tzero] at uv
    exact ⟨u, length.trans value, uq, ucnt, uf.trans tf, uv⟩

/-- Settles O46: the header is answered INCOMPLETE, and behind it only the byte that ends the value, or a length of zero,
completes the frame. -/
theorem pktFrameCompletesOnItsLastByte : Obligations.PktFrameCompletesOnItsLastByte := by
  unfold Obligations.PktFrameCompletesOnItsLastByte
  intro s r0 r1 r2 sq sy dv tg v hc hp hm hq hv
  obtain ⟨t, header, tq, tf⟩ := feeds_pkt_header hc hp hq r0 r1 r2 sq sy dv tg
  have tp : t.cfg.profile ≠ .trailer := by rw [header.link.cfg, hp]; nofun
  rw [← header.link.cfg] at hm hv
  obtain ⟨u, rest, uq, ucnt, uf, uv⟩ := feeds_length_value (header.link.cur.trans hc) tp hm tq v hv
  obtain ⟨run, ⟨out, -⟩, session, ring, crc, -⟩ := header.trans rest
  rw [hc] at out
  rw [tf] at uf
  refine ⟨u, run, ?_, uq, ucnt, uf, uv, session, ring, crc⟩
  rw [List.replicate_add, List.append_assoc, List.append_assoc]
  exact out

end Sys2Proof.Machine
end

section
/-! PROOFS. The link session's commands on port C: VERIFY, PACK, TXB, CLRCNT (43_link_session.md R170 to R183), and the wire
image TXB reads (30_encoding.md R86, R87, R90). -/

namespace Sys2Proof.Machine

/-! ### A change of the link, followed by a response -/

/-- The registers, counters and parser may have been written: the response is the one answer, and what is not the link's is
kept. -/
theorem State.respondAll_of_link_change {s u : State} (rs : List Resp) (hf : SameFixed s u := by constructor <;> rfl)
    (hr : SameRing s u := by exact ⟨fun _ => rfl, rfl, rfl⟩) (hcrc : u.crc = s.crc := by rfl)
    (he : u.handled = s.handled := by rfl) :
    Answers s (u.respondAll rs) rs ∧ SameButLink s (u.respondAll rs) := by
  have ports : ∀ q, u.port q = s.port q := fun q => by cases q; exacts [hf.portP, hf.portC]
  have link : SameButLink s u := ⟨hr, hcrc, fun q => by rw [ports], he, hf.cfg, fun q => by rw [ports], hf.cur,
    hf.grants, hf.draws, hf.epoch, hf.resetReq⟩
  exact ⟨hf.unanswered.answers rs, (u.respondAll_onlyAnswers rs).sameButLink link⟩

theorem exec_clrcnt {s : State} (hc : s.cur = .c) :
    exec .clrcnt s = .next (s.clearCounters.respondAll (resp .ok 0)) :=
  congrArg _ (State.onlyC_c hc _)

/-- Settles O50: the four counters are cleared, and the rest is kept. -/
theorem clrcntClearsTheFourCounters : Obligations.ClrcntClearsTheFourCounters := by
  unfold Obligations.ClrcntClearsTheFourCounters
  refine fun s => ⟨rfl, fun hc => ?_⟩
  exact ⟨_, exec_clrcnt hc, rfl, rfl, rfl, rfl, ⟨rfl, fun _ => rfl⟩, ⟨rfl, rfl⟩, State.respondAll_of_link_change _⟩

/-! ### VERIFY (43_link_session.md R172, R173) -/

section

variable {s : State}

theorem exec_verify_of_overlong (hc : s.cur = .c) (hp : s.cfg.profile ≠ .pkt) (hl : s.cfg.vcap < s.frame.len.toNat) :
    exec .verify s = .next (s.illegal .lenAboveVcap) := by
  rw [exec, execVerify, State.onlyC_c hc]
  rcases s.verify_cases with ⟨-, h | h⟩ | ⟨e, -⟩
  · exact absurd h hp
  · exact absurd (s.lenFits_iff.1 h) hl.not_ge
  · rw [e]

theorem State.verify_of_match
    (h : s.cfg.profile = .pkt ∨ (s.frame.len.toNat ≤ s.cfg.vcap ∧ s.expected = s.frame.checksum)) :
    s.verify = some (s.countValid, .valid) := by
  rcases s.verify_cases with ⟨e, -⟩ | ⟨-, hp, hl⟩
  · rcases s.judge_cases with ⟨j, -⟩ | ⟨-, hp, hne⟩
    · rw [e, j]
    · exact absurd h (not_or.2 ⟨hp, fun hm => hne hm.2⟩)
  · exact absurd h (not_or.2 ⟨hp, fun hm => (s.lenFits_false_iff.1 hl).not_ge hm.1⟩)

theorem State.verify_of_mismatch (hp : s.cfg.profile ≠ .pkt) (hl : s.frame.len.toNat ≤ s.cfg.vcap)
    (hne : s.expected ≠ s.frame.checksum) : s.verify = some (s.countError, .mismatch) := by
  rcases s.verify_cases with ⟨e, -⟩ | ⟨-, -, h⟩
  · rcases s.judge_cases with ⟨-, h | h⟩ | ⟨j, -⟩
    · exact absurd h hp
    · exact absurd h hne
    · rw [e, j]
  · exact absurd hl (s.lenFits_false_iff.1 h).not_ge

theorem exec_verify_of_match (hc : s.cur = .c)
    (h : s.cfg.profile = .pkt ∨ (s.frame.len.toNat ≤ s.cfg.vcap ∧ s.expected = s.frame.checksum)) :
    exec .verify s = .next (s.countValid.respondAll (resp .valid 0)) := by
  rw [exec, execVerify, State.onlyC_c hc, State.verify_of_match h]
  rfl

theorem exec_verify_of_mismatch (hc : s.cur = .c) (hp : s.cfg.profile ≠ .pkt) (hl : s.frame.len.toNat ≤ s.cfg.vcap)
    (hne : s.expected ≠ s.frame.checksum) : exec .verify s = .next (s.countError.respondAll (resp .error 2)) := by
  rw [exec, execVerify, State.onlyC_c hc, State.verify_of_mismatch hp hl hne]
  rfl

end

/-- Settles O47: the guard refuses, a match does the bookkeeping of a valid frame, and a mismatch that of an error. -/
theorem verifyCountsMatchOrMismatch : Obligations.VerifyCountsMatchOrMismatch := by
  unfold Obligations.VerifyCountsMatchOrMismatch
  refine fun s => ⟨rfl, fun hc => ⟨fun hp hl => ?_, fun h => ?_, fun ⟨hp, hl, hne⟩ => ?_⟩⟩
  · exact ⟨_, exec_verify_of_overlong hc hp hl, s.illegal_onlyAnswers _⟩
  · exact ⟨_, exec_verify_of_match hc h, rfl, rfl, rfl, rfl, ⟨rfl, fun _ => rfl⟩, ⟨rfl, rfl⟩,
      State.respondAll_of_link_change _⟩
  · exact ⟨_, exec_verify_of_mismatch hc hp hl hne, rfl, rfl, rfl, rfl, ⟨rfl, fun _ => rfl⟩, ⟨rfl, rfl⟩,
      State.respondAll_of_link_change _⟩

/-! ### PACK (43_link_session.md R176 to R178, R183) -/

/-- A command behind the transmit guards: refused under PKT, then above `VCAP`, and otherwise run
(43_link_session.md R176, R180, R183). -/
theorem exec_of_transmitGuard {i : Instr} {s : State} {k : State → State} (hc : s.cur = .c)
    (he : exec i s = .next (s.onlyC fun s => s.transmitGuard k)) :
    (s.cfg.profile = .pkt → Refused i s 4) ∧
    (s.cfg.profile ≠ .pkt → s.cfg.vcap < s.frame.len.toNat → Refused i s 5) ∧
    (s.cfg.profile ≠ .pkt → s.frame.len.toNat ≤ s.cfg.vcap → exec i s = .next (k s)) := by
  rw [State.onlyC_c hc] at he
  refine ⟨fun hp => ?_, fun hp hl => ?_, fun hp hl => ?_⟩
  · rw [State.transmitGuard, if_pos hp] at he
    exact ⟨_, he, s.illegal_onlyAnswers _⟩
  · rw [State.transmitGuard, if_neg hp, s.lenFits_false_iff.2 hl] at he
    exact ⟨_, he, s.illegal_onlyAnswers _⟩
  · rwa [State.transmitGuard, if_neg hp, if_pos (s.lenFits_iff.2 hl)] at he

/-- The two checksum registers hold the halves of what was stored (43_link_session.md R176). -/
theorem State.checksum_setChecksum (s : State) (c : Half) : (s.setChecksum c).frame.checksum = c := by
  change c.extractLsb' 8 8 ++ c.extractLsb' 0 8 = c
  exact (BitVec.extractLsb'_append_extractLsb'_eq_extractLsb' (x := c) rfl).trans BitVec.extractLsb'_eq_self

/-- What PACK leaves matches its own checksum: the checksum registers are no part of what is summed
(43_link_session.md R170, R171). -/
theorem State.packed_matches (s : State) (f : Byte) : (s.packed f).expected = (s.packed f).frame.checksum :=
  (State.checksum_setChecksum _ _).symm

/-- PACK where nothing refuses it; the answered length saturates (43_link_session.md R178). -/
theorem exec_pack {s : State} (f : Byte) (hc : s.cur = .c) (hp : s.cfg.profile ≠ .pkt)
    (hl : s.frame.len.toNat ≤ s.cfg.vcap) : exec (.pack f) s =
      .next ((s.packed f).respondAll (resp .ok (BitVec.ofNat 32 (min (9 + s.frame.len.toNat) 255)))) :=
  have ⟨_, _, run⟩ := exec_of_transmitGuard hc (i := .pack f) rfl
  run hp hl

/-- Settles O48: behind the guards the Frame is what PACK packed, and its checksum is that of the registers packed. -/
theorem packFillsTheFrame : Obligations.PackFillsTheFrame := by
  unfold Obligations.PackFillsTheFrame
  refine fun f s => ⟨rfl, fun hc => ?_⟩
  obtain ⟨under_pkt, overlong, -⟩ := exec_of_transmitGuard hc (i := .pack f) rfl
  refine ⟨under_pkt, overlong, fun hp hl => ⟨_, exec_pack f hc hp hl, ?_⟩⟩
  exact ⟨rfl, rfl, rfl, rfl, rfl, rfl, rfl, rfl, rfl, rfl, rfl, (s.packed_matches f).symm, fun _ => rfl, rfl, rfl, rfl,
    ⟨rfl, rfl⟩, State.respondAll_of_link_change _⟩

/-! ### The wire image and TXB (30_encoding.md R86, R87, R90; 43_link_session.md R180) -/

/-- The bytes TXB can read, first to last. -/
def State.wireImage (s : State) : List Byte := (List.range s.wireLength).map s.wire

/-- A TRAILER frame: header, value, checksum (30_encoding.md R86). -/
theorem State.wireImage_trailer {s : State} (hp : s.cfg.profile = .trailer) : s.wireImage =
    [s.frame.mark, s.frame.calcFlag, s.frame.seq, s.frame.sys, s.frame.dev, s.frame.tag, s.frame.len] ++
      s.valueBytes s.frame.len.toNat ++ [s.frame.cklo, s.frame.ckhi] := by
  have wire : s.wire = s.wireTrailer := funext fun i => by rw [State.wire, hp]
  have length : s.wireLength = 7 + s.frame.len.toNat + 2 := by rw [State.wireLength]; omega
  have value : ((List.range s.frame.len.toNat).map (7 + ·)).map s.wireTrailer = s.valueBytes s.frame.len.toNat := by
    rw [List.map_map]
    refine List.map_congr_left fun j hj => ?_
    rw [Function.comp_apply, Nat.add_comm, State.wireTrailer, if_pos (List.mem_range.1 hj)]
  have low : s.wireTrailer (7 + s.frame.len.toNat) = s.frame.cklo := by
    rw [Nat.add_comm, State.wireTrailer, if_neg (Nat.lt_irrefl _), if_pos rfl]
  have high : s.wireTrailer (7 + s.frame.len.toNat + 1) = s.frame.ckhi := by
    rw [Nat.add_assoc, Nat.add_comm, Nat.add_right_comm, State.wireTrailer, if_neg (by omega), if_neg (by omega)]
  rw [State.wireImage, wire, length, List.range_succ, List.range_succ, List.range_add, List.map_append,
    List.map_append, List.map_append, value, List.map_singleton, List.map_singleton, low, high, List.append_assoc]
  rfl

/-- A HEADER frame: the checksum stands in front, behind the mark (30_encoding.md R87). -/
theorem State.wireImage_header {s : State} (hp : s.cfg.profile = .header) : s.wireImage =
    [s.frame.mark, s.frame.cklo, s.frame.ckhi, s.frame.calcFlag, s.frame.seq, s.frame.sys, s.frame.dev,
      s.frame.tag, s.frame.len] ++ s.valueBytes s.frame.len.toNat := by
  have wire : s.wire = s.wireHeader := funext fun i => by rw [State.wire, hp]
  have value : ((List.range s.frame.len.toNat).map (9 + ·)).map s.wireHeader = s.valueBytes s.frame.len.toNat := by
    rw [List.map_map]
    refine List.map_congr_left fun j _ => ?_
    rw [Function.comp_apply, Nat.add_comm, State.wireHeader]
  rw [State.wireImage, wire, State.wireLength, List.range_add, List.map_append, value]
  rfl

/-- TXB past the image, and inside it. -/
theorem exec_txb {s : State} (i : Half) (hc : s.cur = .c) (hp : s.cfg.profile ≠ .pkt)
    (hl : s.frame.len.toNat ≤ s.cfg.vcap) :
    (9 + s.frame.len.toNat ≤ i.toNat → Refused (.txb i) s 6) ∧
    (∀ b, s.wireImage[i.toNat]? = some b → Completes (.txb i) s (resp .ok (b.setWidth 32))) := by
  obtain ⟨-, -, run⟩ := exec_of_transmitGuard hc (i := .txb i) rfl
  replace run := run hp hl
  constructor
  · intro h
    rw [if_neg (show ¬ i.toNat < s.wireLength from h.not_gt)] at run
    exact ⟨_, run, s.illegal_onlyAnswers _⟩
  · intro b h
    rw [State.wireImage, List.getElem?_map, Option.map_eq_some_iff] at h
    obtain ⟨j, hj, rfl⟩ := h
    obtain ⟨hi, rfl⟩ := List.getElem?_eq_some_iff.1 hj
    rw [List.length_range] at hi
    rw [if_pos hi] at run
    rw [List.getElem_range]
    exact ⟨_, run, s.respond_onlyAnswers _ _⟩

/-- Settles O49: the image TXB reads is the profile's layout. -/
theorem txbReadsTheWireImage : Obligations.TxbReadsTheWireImage := by
  unfold Obligations.TxbReadsTheWireImage
  refine fun i s => ⟨rfl, fun hc => ?_⟩
  obtain ⟨under_pkt, overlong, -⟩ := exec_of_transmitGuard hc (i := .txb i) rfl
  refine ⟨under_pkt, overlong, fun hp hl => ?_, fun hp hl => ?_, fun hp hl => ?_⟩
  · obtain ⟨past, -⟩ := exec_txb i hc hp hl
    exact past
  · obtain ⟨-, reads⟩ := exec_txb i hc (by rw [hp]; nofun) hl
    rwa [State.wireImage_trailer hp] at reads
  · obtain ⟨-, reads⟩ := exec_txb i hc (by rw [hp]; nofun) hl
    rwa [State.wireImage_header hp] at reads

end Sys2Proof.Machine
end

section
/-! PROOFS. A packed frame sent over the wire: STEP over the whole image of a TRAILER or a HEADER frame, and VERIFY behind it
(30_encoding.md R86, R87; 42_frame_parser.md R156; 43_link_session.md R179). -/

namespace Sys2Proof.Machine

/-- Only PKT has the ASCII length (00_scope.md R9). -/
theorem Cfg.lenMode_raw {c : Cfg} (h : c.profile ≠ .pkt) : c.lenMode = .raw := by
  cases hm : c.lenMode
  · rfl
  · exact absurd (c.ascii_pkt hm) h

theorem Feeds.refl (s : State) : Feeds s [] [] s :=
  ⟨rfl, ⟨(List.append_nil _).symm, rfl⟩, ⟨rfl, rfl, rfl, rfl⟩, (SameOutsideParser.refl s).sameButLink⟩

theorem State.valueBytes_congr {s t : State} (n : Nat) (hv : t.val = s.val) (he : t.epoch = s.epoch) :
    t.valueBytes n = s.valueBytes n :=
  List.map_congr_left fun a _ => by rw [State.valRead, State.valRead, hv, he]

/-! ### The parts both layouts are made of -/

section

variable {s : State}

theorem feeds_mark (hc : s.cur = .c) (hq : s.pstate = .awaitMark) :
    ∃ t, Feeds s [0x7E] (List.replicate 1 { st := .incomplete, data := 0 }) t ∧ t.pstate = afterMark s.cfg.profile ∧
      t.frame = { s.frame with mark := 0x7E } :=
  ⟨_, .byte hc (State.parse_mark hq) ⟨rfl, rfl, rfl, rfl⟩, rfl, rfl⟩

/-- The five fields between the calc byte and the tag. -/
theorem feeds_fields (hc : s.cur = .c) (hq : s.pstate = .awaitCalc) (cf sq sy dv tg : Byte) :
    ∃ t, Feeds s [cf, sq, sy, dv, tg] (List.replicate 5 { st := .incomplete, data := 0 }) t ∧ t.pstate = .awaitLen ∧
      t.frame = { s.frame with calcFlag := cf, seq := sq, sys := sy, dev := dv, tag := tg } := by
  have calc_seq := ((Feeds.refl s).field hc (congrArg fixedField hq) cf).field hc rfl sq
  exact ⟨_, ((calc_seq.field hc rfl sy).field hc rfl dv).field hc rfl tg, rfl, rfl⟩

/-- Under HEADER the checksum goes on to the calc byte (42_frame_parser.md R147). -/
theorem feeds_checksum_of_header (hc : s.cur = .c) (hp : s.cfg.profile = .header) (hq : s.pstate = .awaitChecksumLow)
    (lo hi : Byte) :
    ∃ t, Feeds s [lo, hi] (List.replicate 2 { st := .incomplete, data := 0 }) t ∧ t.pstate = .awaitCalc ∧
      t.frame = { s.frame with cklo := lo, ckhi := hi } := by
  have low := (Feeds.refl s).field hc (congrArg fixedField hq) lo
  rw [← low.link.cfg] at hp
  have high := State.parse_checksumHigh_of_header rfl hp hi
  exact ⟨_, low.trans (.byte (low.link.cur.trans hc) high ⟨rfl, rfl, rfl, rfl⟩), rfl, rfl⟩

/-- Under TRAILER the checksum completes the frame (42_frame_parser.md R147). -/
theorem feeds_checksum_of_trailer (hc : s.cur = .c) (hp : s.cfg.profile = .trailer) (hq : s.pstate = .awaitChecksumLow)
    (lo hi : Byte) :
    ∃ t, Feeds s [lo, hi] (List.replicate 1 { st := .incomplete, data := 0 } ++ resp .complete 0) t ∧
      t.frame = { s.frame with cklo := lo, ckhi := hi } ∧ ∀ n, t.valueBytes n = s.valueBytes n := by
  have low := (Feeds.refl s).field hc (congrArg fixedField hq) lo
  rw [← low.link.cfg] at hp
  have high := State.parse_checksumHigh_of_trailer rfl hp hi
  have checksum := low.trans (.byte (low.link.cur.trans hc) high ⟨rfl, rfl, rfl, rfl⟩)
  exact ⟨_, checksum, rfl, fun n => State.valueBytes_congr n (by simp) (by simp)⟩

/-! ### A length and a value with the checksum behind them -/

/-- Value bytes that leave at least one to come are stored behind those already collected. -/
theorem feeds_value_part (v : List Byte) (hc : s.cur = .c) (hq : s.pstate = .awaitValue)
    (hfit : s.frame.len.toNat ≤ s.cfg.vcap) (hlen : s.byteCnt.toNat + v.length < s.frame.len.toNat) :
    ∃ t, Feeds s v (List.replicate v.length { st := .incomplete, data := 0 }) t ∧ t.pstate = .awaitValue ∧
      t.byteCnt.toNat = s.byteCnt.toNat + v.length ∧ t.frame = s.frame ∧
      t.valueBytes t.byteCnt.toNat = s.valueBytes s.byteCnt.toNat ++ v := by
  induction v using List.reverseRecOn with
  | nil => exact ⟨s, .refl s, hq, rfl, rfl, (List.append_nil _).symm⟩
  | append_singleton v b ih =>
    rw [List.length_append, List.length_singleton] at hlen ⊢
    obtain ⟨t, part, tq, tcnt, tf, tv⟩ := ih (by omega)
    rw [← part.link.cfg, ← tf] at hfit
    rw [← tf] at hlen
    have hlt := t.frame.len.isLt
    have hn : t.byteCnt + 1 ≠ t.frame.len := by bv_omega
    have hcnt : (t.byteCnt + 1).toNat = t.byteCnt.toNat + 1 := by bv_omega
    obtain ⟨u, byte, uq, ucnt, uf, uv⟩ := feeds_value_more (part.link.cur.trans hc) tq hfit hn b
    rw [← ucnt] at hcnt
    refine ⟨u, ?_, uq, by omega, uf.trans tf, ?_⟩
    · rw [List.replicate_add]
      exact part.trans byte
    · rw [hcnt, uv, tv, List.append_assoc]

/-- Under TRAILER the last value byte leads to the checksum (42_frame_parser.md R145). -/
theorem feeds_value_of_trailer (v : List Byte) (b : Byte) (hc : s.cur = .c) (hp : s.cfg.profile = .trailer)
    (hq : s.pstate = .awaitValue) (hfit : s.frame.len.toNat ≤ s.cfg.vcap)
    (hlen : s.byteCnt.toNat + v.length + 1 = s.frame.len.toNat) :
    ∃ t, Feeds s (v ++ [b]) (List.replicate (v.length + 1) { st := .incomplete, data := 0 }) t ∧
      t.pstate = .awaitChecksumLow ∧ t.frame = s.frame ∧
      t.valueBytes s.frame.len.toNat = s.valueBytes s.byteCnt.toNat ++ (v ++ [b]) := by
  obtain ⟨t, part, tq, tcnt, tf, tv⟩ := feeds_value_part v hc hq hfit (by omega)
  rw [← part.link.cfg] at hp hfit
  rw [← tcnt] at hlen
  rw [← tf] at hfit hlen ⊢
  have hlt := t.frame.len.isLt
  have hn : t.byteCnt + 1 = t.frame.len := by bv_omega
  have parsed := (State.parse_value_of_last tq hfit hn b).trans (State.afterValue_of_trailer hp)
  have value := part.trans (.byte (part.link.cur.trans hc) parsed ⟨rfl, rfl, rfl, rfl⟩)
  rw [List.replicate_add, ← hlen, ← List.append_assoc, ← tv]
  exact ⟨_, value, rfl, rfl, t.valueBytes_valWrite _ b⟩

/-- Under TRAILER a length and a value of as many bytes lead to the checksum. -/
theorem feeds_length_value_of_trailer (hc : s.cur = .c) (hp : s.cfg.profile = .trailer) (hq : s.pstate = .awaitLen)
    {n : Byte} {v : List Byte} (hn : v.length = n.toNat) (hfit : n.toNat ≤ s.cfg.vcap) :
    ∃ t, Feeds s (n :: v) (List.replicate (1 + n.toNat) { st := .incomplete, data := 0 }) t ∧
      t.pstate = .awaitChecksumLow ∧ t.frame = { s.frame with len := n } ∧ t.valueBytes n.toNat = v := by
  have hm : s.cfg.lenMode = .raw := Cfg.lenMode_raw (by rw [hp]; nofun)
  rcases List.eq_nil_or_concat' v with rfl | ⟨v, b, rfl⟩
  · have hz : n = 0 := BitVec.eq_of_toNat_eq hn.symm
    subst hz
    rcases s.recordLen_cases 0 with ⟨h, -⟩ | ⟨-, -, e⟩ | ⟨-, h, -⟩
    · exact absurd rfl h
    · exact ⟨_, .byte hc ((State.parse_len_of_raw hq hm 0).trans e) ⟨rfl, rfl, rfl, rfl⟩, rfl, rfl, rfl⟩
    · exact absurd hp h
  · rw [List.length_append, List.length_singleton] at hn
    have hne : n ≠ 0 := fun h => by rw [h] at hn; cases hn
    obtain ⟨t, length, tq, tcnt, tf⟩ := feeds_length hc hm hq hne
    have tlen : t.frame.len = n := by rw [tf]
    have tzero : t.byteCnt.toNat = 0 := by rw [tcnt]; rfl
    rw [← length.link.cfg] at hp hfit
    rw [← tlen] at hfit
    obtain ⟨u, value, uq, uf, uv⟩ := feeds_value_of_trailer v b (length.link.cur.trans hc) hp tq hfit
      (by rw [tzero, tlen, Nat.zero_add, hn])
    rw [tlen, tzero] at uv
    rw [← hn, List.replicate_add]
    rw [← hn] at uv
    exact ⟨u, length.trans value, uq, uf.trans tf, uv⟩

end

/-! ### The whole image -/

/-- The receiver's Frame behind a frame `g` of a checksummed profile: the wire does not carry the reserved registers. -/
def Frame.received (g f : Frame) : Frame := { g with resv0 := f.resv0, resv1 := f.resv1, resv2 := f.resv2 }

/-- A TRAILER frame `g` with the value `v`: only its last checksum byte completes it. -/
theorem feeds_trailer_image {s : State} (hc : s.cur = .c) (hp : s.cfg.profile = .trailer) (hq : s.pstate = .awaitMark)
    {g : Frame} {v : List Byte} (hmark : g.mark = 0x7E) (hv : v.length = g.len.toNat)
    (hfit : g.len.toNat ≤ s.cfg.vcap) :
    ∃ t, Feeds s ([g.mark, g.calcFlag, g.seq, g.sys, g.dev, g.tag, g.len] ++ v ++ [g.cklo, g.ckhi])
        (List.replicate (8 + g.len.toNat) { st := .incomplete, data := 0 } ++ resp .complete 0) t ∧
      t.frame = g.received s.frame ∧ t.valueBytes g.len.toNat = v := by
  obtain ⟨t1, mark, q1, f1⟩ := feeds_mark hc hq
  rw [hp] at q1
  obtain ⟨t2, fields, q2, f2⟩ := feeds_fields (mark.link.cur.trans hc) q1 g.calcFlag g.seq g.sys g.dev g.tag
  have header := mark.trans fields
  rw [← header.link.cfg] at hp hfit
  obtain ⟨t3, value, q3, f3, v3⟩ := feeds_length_value_of_trailer (header.link.cur.trans hc) hp q2 hv hfit
  have body := header.trans value
  rw [header.link.cfg, ← body.link.cfg] at hp
  obtain ⟨t4, checksum, f4, v4⟩ := feeds_checksum_of_trailer (body.link.cur.trans hc) hp q3 g.cklo g.ckhi
  refine ⟨t4, ?_, ?_, (v4 _).trans v3⟩
  · have fed := body.trans checksum
    rw [← List.append_assoc, List.replicate_append_replicate, List.replicate_append_replicate,
      List.replicate_append_replicate, ← hmark, show 1 + 5 + (1 + g.len.toNat) + 1 = 8 + g.len.toNat by omega] at fed
    exact fed
  · rw [f4, f3, f2, f1, ← hmark]
    rfl

/-- A HEADER frame `g` with the value `v`: only its last byte completes it. -/
theorem feeds_header_image {s : State} (hc : s.cur = .c) (hp : s.cfg.profile = .header) (hq : s.pstate = .awaitMark)
    {g : Frame} {v : List Byte} (hmark : g.mark = 0x7E) (hv : v.length = g.len.toNat)
    (hfit : g.len.toNat ≤ s.cfg.vcap) :
    ∃ t, Feeds s ([g.mark, g.cklo, g.ckhi, g.calcFlag, g.seq, g.sys, g.dev, g.tag, g.len] ++ v)
        (List.replicate (8 + g.len.toNat) { st := .incomplete, data := 0 } ++ resp .complete 0) t ∧
      t.frame = g.received s.frame ∧ t.valueBytes g.len.toNat = v := by
  obtain ⟨t1, mark, q1, f1⟩ := feeds_mark hc hq
  rw [hp] at q1
  rw [← mark.link.cfg] at hp
  obtain ⟨t2, checksum, q2, f2⟩ := feeds_checksum_of_header (mark.link.cur.trans hc) hp q1 g.cklo g.ckhi
  have front := mark.trans checksum
  obtain ⟨t3, fields, q3, f3⟩ := feeds_fields (front.link.cur.trans hc) q2 g.calcFlag g.seq g.sys g.dev g.tag
  have header := front.trans fields
  rw [mark.link.cfg, ← header.link.cfg] at hp
  rw [← header.link.cfg, ← hv] at hfit
  have hm : t3.cfg.lenMode = .raw := Cfg.lenMode_raw (by rw [hp]; nofun)
  obtain ⟨t4, value, -, -, f4, v4⟩ :=
    feeds_length_value (header.link.cur.trans hc) (by rw [hp]; nofun) hm q3 v hfit
  have hlen : BitVec.ofNat 8 v.length = g.len := by rw [hv, BitVec.ofNat_toNat, BitVec.setWidth_eq]
  rw [hlen] at value f4
  rw [hv] at value v4
  refine ⟨t4, ?_, ?_, v4⟩
  · have fed := header.trans value
    rw [← List.append_assoc, List.replicate_append_replicate, List.replicate_append_replicate,
      List.replicate_append_replicate, ← hmark] at fed
    exact fed
  · rw [f4, f3, f2, f1, ← hmark]
    rfl

theorem State.length_valueBytes (s : State) (n : Nat) : (s.valueBytes n).length = n := by
  rw [State.valueBytes, List.length_map, List.length_range]

/-- The wire image of a frame, fed to a receiver of the same profile that can hold its value: only the last byte completes
the frame, and the Frame and the value are the sender's. -/
theorem feeds_wireImage {t r : State} (hn : t.cfg.profile ≠ .pkt) (hmark : t.frame.mark = 0x7E) (hc : r.cur = .c)
    (hp : r.cfg.profile = t.cfg.profile) (hq : r.pstate = .awaitMark) (hfit : t.frame.len.toNat ≤ r.cfg.vcap) :
    ∃ u, Feeds r t.wireImage
        (List.replicate (8 + t.frame.len.toNat) { st := .incomplete, data := 0 } ++ resp .complete 0) u ∧
      u.frame = t.frame.received r.frame ∧
      u.valueBytes t.frame.len.toNat = t.valueBytes t.frame.len.toNat := by
  have hv := t.length_valueBytes t.frame.len.toNat
  cases profile : t.cfg.profile
  case trailer =>
    rw [State.wireImage_trailer profile]
    exact feeds_trailer_image hc (hp.trans profile) hq hmark hv hfit
  case header =>
    rw [State.wireImage_header profile]
    exact feeds_header_image hc (hp.trans profile) hq hmark hv hfit
  case pkt => exact absurd profile hn

/-! ### PACK, the wire, and VERIFY (43_link_session.md R179) -/

/-- The checksum is computed from what the wire carries (43_link_session.md R170, R171). -/
theorem State.expected_received {t u : State} {f : Frame} (hf : u.frame = t.frame.received f)
    (hv : u.valueBytes t.frame.len.toNat = t.valueBytes t.frame.len.toNat) : u.expected = t.expected := by
  have span : u.span = t.span := by
    rw [State.span, hf]
    exact congrArg _ hv
  rw [State.expected, span, hf]
  rfl

/-- Settles O51: the image arrives whole, and so the checksum PACK computed is the one the receiver expects. -/
theorem packedFrameRoundTrips : Obligations.PackedFrameRoundTrips := by
  unfold Obligations.PackedFrameRoundTrips
  intro s t r f hsc hsp hsl hpack hc hp hq hfit
  obtain rfl : _ = t := Host.Outcome.next.inj ((exec_pack f hsc hsp hsl).symm.trans hpack)
  obtain ⟨u, feed, uf, uv⟩ := feeds_wireImage (t := s.packed f) hsp rfl hc hp hq hfit
  have checks : u.expected = u.frame.checksum := by
    rw [State.expected_received uf uv, s.packed_matches f, uf]
    rfl
  obtain ⟨run, ⟨out, -⟩, ⟨-, -, errors, valids⟩, link⟩ := feed
  have uc := link.cur.trans hc
  have ul : u.frame.len.toNat ≤ u.cfg.vcap := by
    rw [uf, link.cfg]
    exact hfit
  have answer := u.countValid.out_respondAll_cur (resp .valid 0)
  rw [State.countValid_cur, uc] at answer
  rw [hc, ← List.append_assoc] at out
  rw [State.wireImage, List.map_map] at run
  refine ⟨u, _, run, out, exec_verify_of_match uc (.inr ⟨ul, checks⟩), answer, ?_, ?_, ?_, ?_, ?_⟩
  · rw [State.respondAll_validCount, State.countValid_validCount, valids]
  · rw [State.respondAll_errorCount, State.countValid_errorCount, errors]
  · rw [State.respondAll_lastSeqRx, State.countValid_lastSeqRx, uf]
    rfl
  · exact uf
  · exact uv

end Sys2Proof.Machine
end

section
/-! PROOFS. The Decode Adapter: what becomes of one byte taken from the ring, and DECODE1 and PROCESS, which both take
bytes so (44_decode_adapter.md R190 to R195). -/

namespace Sys2Proof.Machine

/-! ### One byte taken from the ring -/

/-- What one byte taken from the ring comes to (44_decode_adapter.md R190). -/
inductive Decoding where
  | incomplete
  | valid
  | error (c : Cause)

/-- What a verified frame comes to (44_decode_adapter.md R190). -/
def Verdict.decoding : Verdict → Decoding
  | .valid => .valid
  | .mismatch => .error .checksumMismatch

/-- What DECODE1 answers (44_decode_adapter.md R190). -/
def Decoding.answer : Decoding → Resp
  | .incomplete => { st := .incomplete, data := 0 }
  | .valid => { st := .valid, data := 0 }
  | .error c => { st := .error, data := c.code }

theorem Decoding.answer_ne_none (d : Decoding) : d.answer.st ≠ .none := by cases d <;> nofun

/-- The part DECODE1 and PROCESS share on a ring that holds a byte: the byte is popped and parsed, and a completed frame
is verified (44_decode_adapter.md R190, R192). -/
def State.takeByte (s : State) : State × Decoding :=
  match s.advanceHead.parse (s.rbRead (s.phys s.head)) with
  | (u, .incomplete) => (u, .incomplete)
  | (u, .error c) => (u, .error c)
  | (u, .complete) => u.verifyCompleted.map id Verdict.decoding

/-- Only a valid frame is handed to the handler (44_decode_adapter.md R192, R195). -/
def State.handOver (s : State) : Decoding → State
  | .valid => s.emitHandle s.snapshot
  | .incomplete => s
  | .error _ => s

section

variable {s u v : State}

theorem State.takeByte_of_incomplete
    (hx : s.advanceHead.parse (s.rbRead (s.phys s.head)) = (u, .incomplete)) : s.takeByte = (u, .incomplete) := by
  rw [State.takeByte, hx]

theorem State.takeByte_of_error {c : Cause}
    (hx : s.advanceHead.parse (s.rbRead (s.phys s.head)) = (u, .error c)) : s.takeByte = (u, .error c) := by
  rw [State.takeByte, hx]

theorem State.takeByte_of_complete {y : Verdict}
    (hx : s.advanceHead.parse (s.rbRead (s.phys s.head)) = (u, .complete)) (hv : u.verifyCompleted = (v, y)) :
    s.takeByte = (v, y.decoding) := by
  simp only [State.takeByte, hx, hv]
  rfl

/-- All that a byte taken can come to. -/
theorem State.takeByte_cases (s : State) :
    (∃ u, s.advanceHead.parse (s.rbRead (s.phys s.head)) = (u, .incomplete) ∧ s.takeByte = (u, .incomplete)) ∨
    (∃ u c, s.advanceHead.parse (s.rbRead (s.phys s.head)) = (u, .error c) ∧ s.takeByte = (u, .error c)) ∨
    (∃ u v y, s.advanceHead.parse (s.rbRead (s.phys s.head)) = (u, .complete) ∧ u.verifyCompleted = (v, y) ∧
      s.takeByte = (v, y.decoding)) := by
  rcases hx : s.advanceHead.parse (s.rbRead (s.phys s.head)) with ⟨u, _ | _ | c⟩
  · exact .inl ⟨u, rfl, State.takeByte_of_incomplete hx⟩
  · exact .inr (.inr ⟨u, _, _, rfl, rfl, State.takeByte_of_complete hx rfl⟩)
  · exact .inr (.inl ⟨u, c, rfl, State.takeByte_of_error hx⟩)

/-- A byte taken leaves what the parser leaves, with at most the bookkeeping of `verify()` done. -/
theorem State.takeByte_fst (s : State) :
    s.takeByte.1 = (s.advanceHead.parse (s.rbRead (s.phys s.head))).1 ∨
    s.takeByte.1 = (s.advanceHead.parse (s.rbRead (s.phys s.head))).1.countValid ∨
    s.takeByte.1 = (s.advanceHead.parse (s.rbRead (s.phys s.head))).1.countError := by
  rcases s.takeByte_cases with ⟨u, hx, e⟩ | ⟨u, c, hx, e⟩ | ⟨u, v, y, hx, hv, e⟩ <;> rw [hx, e]
  · exact .inl rfl
  · exact .inl rfl
  · have verified := u.verifyCompleted_fst
    rw [hv] at verified
    exact .inr verified

/-- Outside the link a byte taken moves HEAD alone. -/
theorem State.takeByte_outside (s : State) :
    SameFixed s s.takeByte.1 ∧ SameCells s.advanceHead s.takeByte.1 ∧ s.takeByte.1.handled = s.handled := by
  have o := s.advanceHead.parse_outside (s.rbRead (s.phys s.head))
  rcases s.takeByte_fst with h | h | h <;> rw [h] <;>
    exact ⟨⟨o.cfg, o.portP, o.portC, o.cur, o.grants, o.draws, o.epoch, o.resetReq⟩, o.cells, o.handled⟩

theorem State.usedCount_takeByte (he : s.isEmpty = false) :
    s.takeByte.1.usedCount.toNat + 1 = s.usedCount.toNat := by
  obtain ⟨-, ⟨-, hhead, htail⟩, -⟩ := s.takeByte_outside
  rw [State.usedCount, hhead, htail]
  exact s.usedCount_pop he

/-! ### The two commands on port C -/

theorem exec_decode1_of_empty (hc : s.cur = .c) (he : s.isEmpty = true) :
    exec .decode1 s = .next (s.respond .none 0) := by
  rw [exec, execDecode1, State.onlyC_c hc, State.popByte_none he]

theorem exec_process_of_empty (hc : s.cur = .c) (he : s.isEmpty = true) :
    exec .process s = .next ((s.setRunning none).respondAll (resp .ok 0)) := by
  rw [exec, execProcess, State.onlyC_c hc, State.popByte_none he]
  rfl

/-- DECODE1 answers what the byte comes to (44_decode_adapter.md R190). -/
theorem exec_decode1_of_takeByte {d : Decoding} (hc : s.cur = .c) (he : s.isEmpty = false)
    (h : s.takeByte = (v, d)) : exec .decode1 s = .next (v.respondAll [d.answer]) := by
  rw [exec, execDecode1, State.onlyC_c hc, State.popByte_some he]
  rcases s.takeByte_cases with ⟨u, hx, e⟩ | ⟨u, c, hx, e⟩ | ⟨u, v, y, hx, hv, e⟩ <;> cases h.symm.trans e
  · simp only [hx]; rfl
  · simp only [hx]; rfl
  · simp only [hx, hv]
    cases y <;> rfl

/-- PROCESS hands a valid frame over and goes on (44_decode_adapter.md R192, R195). -/
theorem exec_process_of_takeByte {d : Decoding} (hc : s.cur = .c) (he : s.isEmpty = false)
    (h : s.takeByte = (v, d)) : exec .process s = .next ((v.handOver d).setRunning (some .process)) := by
  rw [exec, execProcess, State.onlyC_c hc, State.popByte_some he]
  rcases s.takeByte_cases with ⟨u, hx, e⟩ | ⟨u, c, hx, e⟩ | ⟨u, v, y, hx, hv, e⟩ <;> cases h.symm.trans e
  · simp only [hx]; rfl
  · simp only [hx]; rfl
  · simp only [hx, hv]
    cases y <;> rfl

/-! ### The statements about one command -/

/-- A completed frame is judged by `verify()` unless its guard trips, and then it is a mismatch
(43_link_session.md R172; log 13). -/
theorem State.verifyCompleted_guard {y : Verdict} (hv : u.verifyCompleted = (v, y)) :
    (u.cfg.profile = .pkt ∨ u.frame.len.toNat ≤ u.cfg.vcap → u.verify = some (v, y)) ∧
    (u.cfg.profile ≠ .pkt → u.cfg.vcap < u.frame.len.toNat → v = u.countError ∧ y = .mismatch) := by
  constructor
  · intro hg
    rcases u.verify_cases with ⟨e, -⟩ | ⟨-, hp, hl⟩
    · rw [e, ← State.verifyCompleted_of_some e, hv]
    · exact absurd hg (not_or.2 ⟨hp, (u.lenFits_false_iff.1 hl).not_ge⟩)
  · intro hp hl
    exact Prod.mk.inj (hv.symm.trans (State.verifyCompleted_overlong hp hl))

end

/-- Settles O53: each outcome of the parser and of `verify()` is what the byte taken comes to, which DECODE1 answers. -/
theorem decodeOnePopsParsesAndVerifies : Obligations.DecodeOnePopsParsesAndVerifies := by
  unfold Obligations.DecodeOnePopsParsesAndVerifies
  refine fun s => ⟨rfl, fun hc => ⟨fun he => ?_, fun hne u v x y hx hv => ?_⟩⟩
  · exact ⟨_, exec_decode1_of_empty hc (State.isEmpty_iff_eq.2 he), s.respond_onlyAnswers _ _⟩
  · change s.advanceHead.parse (s.rbRead (s.phys s.head)) = (u, x) at hx
    have run {w : State} {d : Decoding} (h : s.takeByte = (w, d)) :
        ∃ t, exec .decode1 s = .next t ∧ OnlyAnswers w t [d.answer] :=
      ⟨_, exec_decode1_of_takeByte hc (State.isEmpty_eq_false.2 hne) h, w.respondAll_onlyAnswers _⟩
    obtain ⟨verified, overlong⟩ := State.verifyCompleted_guard hv
    have parsed := (s.advanceHead.parse_outside (s.rbRead (s.phys s.head))).sameButLink
    rw [hx] at parsed
    obtain ⟨⟨ring, head, tail⟩, crc, busy, events, outside⟩ := parsed
    refine ⟨?_, ?_, ?_, ?_, ?_, verified, overlong, head, tail, ring, crc, busy, events, outside⟩
    · rintro rfl
      exact run (State.takeByte_of_incomplete hx)
    · rintro rfl
      exact run (State.takeByte_of_error hx)
    · rintro rfl
      exact run (State.takeByte_of_error hx)
    · rintro rfl rfl
      exact run (State.takeByte_of_complete hx hv)
    · rintro rfl rfl
      exact run (State.takeByte_of_complete hx hv)

/-- PROCESS after a byte that brings no valid frame: nothing is answered or handed over (44_decode_adapter.md R195). -/
theorem exec_process_goes_on {s v : State} {d : Decoding} (hc : s.cur = .c) (he : s.isEmpty = false)
    (h : s.takeByte = (v, d)) (hd : v.handOver d = v) :
    ∃ t, exec .process s = .next t ∧ t.portC.busy = some .process ∧ Answers v t [] ∧ SameRing v t ∧
      SameButRingAndBusy v t := by
  have run := exec_process_of_takeByte hc he h
  have fixed := s.takeByte_outside.1
  rw [h] at fixed
  rw [hd] at run
  obtain ⟨same, ring, answer⟩ := v.setRunning_sameButRingAndBusy (some .process)
  exact ⟨_, run, State.busy_of_running_c (v.running_setRunning _) (fixed.cur.trans hc), answer, ring, same⟩

/-- PROCESS after a byte that completes a valid frame: its snapshot is handed over (44_decode_adapter.md R194, R195). -/
theorem exec_process_hands_over {s u v : State} (hc : s.cur = .c) (he : s.isEmpty = false)
    (hx : s.advanceHead.parse (s.rbRead (s.phys s.head)) = (u, .complete)) (hv : u.verifyCompleted = (v, .valid)) :
    ∃ t, exec .process s = .next t ∧ t.portC.busy = some .process ∧ Answers v t [] ∧ SameRing v t ∧ SameCrc v t ∧
      SameFrame v t ∧ SameSession v t ∧ SameParser v t ∧ SameOutside v t ∧
      t.handled = s.handled ++ [{ regs := u.frame, value := u.valueBytes u.frame.len.toNat }] := by
  have h := State.takeByte_of_complete hx hv
  have run := exec_process_of_takeByte hc he h
  obtain ⟨fixed, -, handled⟩ := s.takeByte_outside
  rw [h] at fixed handled
  have hcount : v = u.countValid := by
    rcases u.verifyCompleted_cases with ⟨e, -⟩ | ⟨e, -⟩ <;> cases hv.symm.trans e
    rfl
  obtain ⟨⟨crc, frame, session, parser, -, -, outside⟩, ring, answer⟩ :=
    (v.emitHandle v.snapshot).setRunning_sameButRingAndBusy (some .process)
  refine ⟨_, run, State.busy_of_running_c (State.running_setRunning _ _) (fixed.cur.trans hc), answer, ring, crc, frame,
    session, parser, outside, ?_⟩
  subst hcount
  exact congrArg (· ++ [u.countValid.snapshot]) handled

/-- Settles O54: PROCESS ends on an empty ring, and otherwise hands over what the byte completed, if it is valid. -/
theorem processHandsValidFramesToTheHandler : Obligations.ProcessHandsValidFramesToTheHandler := by
  unfold Obligations.ProcessHandsValidFramesToTheHandler
  refine fun s => ⟨rfl, fun hc => ⟨fun he => ?_, fun hne u v x y hx hv => ?_⟩⟩
  · obtain ⟨idle, answer, ring, same⟩ := s.finish_onlyAnswers (resp .ok 0)
    exact ⟨_, exec_process_of_empty hc (State.isEmpty_iff_eq.2 he), State.busy_of_running_c idle hc, answer, ring, same⟩
  · change s.advanceHead.parse (s.rbRead (s.phys s.head)) = (u, x) at hx
    have he := State.isEmpty_eq_false.2 hne
    refine ⟨fun hn => ?_, ?_, ?_, State.verifyCompleted_guard hv⟩
    · rcases x with _ | _ | c
      · exact exec_process_goes_on hc he (State.takeByte_of_incomplete hx) rfl
      · exact absurd rfl hn
      · exact exec_process_goes_on hc he (State.takeByte_of_error hx) rfl
    · rintro rfl rfl
      exact exec_process_goes_on hc he (State.takeByte_of_complete hx hv) rfl
    · rintro rfl rfl
      exact exec_process_hands_over hc he hx hv

end Sys2Proof.Machine
end

section
/-! PROOFS. With no producer activity PROCESS changes the block exactly as DRAIN does (44_decode_adapter.md R199):
taking bytes from the ring does not see what stands on port C or has been handed to port H. -/

namespace Sys2Proof.Machine

/-! ### Port C and the events replaced -/

/-- The same block, with another port C and other events on port H. -/
def State.withPorts (s : State) (x : PortState) (hs : List Snapshot) : State := { s with portC := x, handled := hs }

section

variable (s : State) (x : PortState) (hs : List Snapshot)

@[simp] theorem State.withPorts_cfg : (s.withPorts x hs).cfg = s.cfg := rfl

@[simp] theorem State.withPorts_frame : (s.withPorts x hs).frame = s.frame := rfl

@[simp] theorem State.withPorts_pstate : (s.withPorts x hs).pstate = s.pstate := rfl

@[simp] theorem State.withPorts_byteCnt : (s.withPorts x hs).byteCnt = s.byteCnt := rfl

@[simp] theorem State.lenFits_withPorts : (s.withPorts x hs).lenFits = s.lenFits := rfl

@[simp] theorem State.matched_withPorts : (s.withPorts x hs).matched = s.matched := rfl

theorem State.afterValue_withPorts :
    (s.withPorts x hs).afterValue = s.afterValue.map (State.withPorts · x hs) id := by
  unfold State.afterValue
  rw [State.withPorts_cfg]
  cases s.cfg.profile <;> rfl

theorem State.afterLen_withPorts :
    (s.withPorts x hs).afterLen = s.afterLen.map (State.withPorts · x hs) id := by
  unfold State.afterLen
  rw [State.withPorts_frame]
  split
  · exact s.afterValue_withPorts x hs
  · rfl

theorem State.recordLen_withPorts (b : Byte) :
    (s.withPorts x hs).recordLen b = (s.recordLen b).map (State.withPorts · x hs) id :=
  ((s.setF .len b).setByteCnt 0).afterLen_withPorts x hs

theorem State.parseLen_withPorts (b : Byte) :
    (s.withPorts x hs).parseLen b = (s.parseLen b).map (State.withPorts · x hs) id := by
  unfold State.parseLen
  rw [State.withPorts_cfg]
  cases s.cfg.lenMode
  · exact s.recordLen_withPorts x hs b
  · cases hexval b
    · rfl
    · exact s.recordLen_withPorts x hs _

theorem State.parseValue_withPorts (b : Byte) :
    (s.withPorts x hs).parseValue b = (s.parseValue b).map (State.withPorts · x hs) id := by
  unfold State.parseValue
  rw [State.lenFits_withPorts, State.withPorts_byteCnt, State.withPorts_frame]
  split
  · split
    · exact ((s.valWrite s.byteCnt.toNat b).setByteCnt 0).afterValue_withPorts x hs
    · rfl
  · rfl

theorem State.parse_withPorts (b : Byte) :
    (s.withPorts x hs).parse b = (s.parse b).map (State.withPorts · x hs) id := by
  unfold State.parse
  rw [State.withPorts_pstate]
  cases s.pstate
  case awaitMark => dsimp only; split <;> rfl
  case awaitLen => exact s.parseLen_withPorts x hs b
  case awaitValue => exact s.parseValue_withPorts x hs b
  case awaitChecksumHigh =>
    unfold State.parseChecksumHigh
    rw [State.withPorts_cfg]
    cases s.cfg.profile <;> rfl
  all_goals rfl

theorem State.verifyCompleted_withPorts :
    (s.withPorts x hs).verifyCompleted = s.verifyCompleted.map (State.withPorts · x hs) id := by
  unfold State.verifyCompleted State.verify State.judge
  rw [State.withPorts_cfg, State.lenFits_withPorts, State.matched_withPorts]
  split_ifs <;> rfl

/-- Taking a byte does not see port C or the events. -/
theorem State.takeByte_withPorts :
    (s.withPorts x hs).takeByte = s.takeByte.map (State.withPorts · x hs) id := by
  have parsed : (s.withPorts x hs).advanceHead.parse
      ((s.withPorts x hs).rbRead ((s.withPorts x hs).phys (s.withPorts x hs).head)) = _ :=
    s.advanceHead.parse_withPorts x hs (s.rbRead (s.phys s.head))
  rcases s.takeByte_cases with ⟨u, hx, e⟩ | ⟨u, c, hx, e⟩ | ⟨u, v, y, hx, hv, e⟩ <;> rw [hx] at parsed <;> rw [e]
  · exact State.takeByte_of_incomplete parsed
  · exact State.takeByte_of_error parsed
  · have verified := u.verifyCompleted_withPorts x hs
    rw [hv] at verified
    exact State.takeByte_of_complete parsed verified

/-- What is no answer and no event is the same (44_decode_adapter.md R199). -/
theorem State.withPorts_same {x y : PortState} (gs hs : List Snapshot) (hin : y.inbox = x.inbox)
    (hbusy : y.busy = x.busy) :
    SameRing (s.withPorts x gs) (s.withPorts y hs) ∧ SameCrc (s.withPorts x gs) (s.withPorts y hs) ∧
      SameFrame (s.withPorts x gs) (s.withPorts y hs) ∧ SameSession (s.withPorts x gs) (s.withPorts y hs) ∧
      SameParser (s.withPorts x gs) (s.withPorts y hs) ∧ SameBusy (s.withPorts x gs) (s.withPorts y hs) ∧
      SameOutside (s.withPorts x gs) (s.withPorts y hs) := by
  refine ⟨⟨fun _ => rfl, rfl, rfl⟩, rfl, ⟨rfl, fun _ => rfl⟩, ⟨rfl, rfl, rfl, rfl⟩, ⟨rfl, rfl⟩, fun q => ?_, rfl,
    fun q => ?_, rfl, rfl, rfl, rfl, rfl⟩
  · cases q; exacts [rfl, hbusy]
  · cases q; exacts [rfl, hin]

theorem State.respondAll_eq_withPorts {s : State} (hc : s.cur = .c) (rs : List Resp) :
    s.respondAll rs = s.withPorts { s.portC with out := s.portC.out ++ rs } s.handled := by
  simp [State.respondAll, State.setPort, State.port, State.withPorts, hc]

theorem State.setRunning_eq_withPorts {s : State} (hc : s.cur = .c) (r : Option Running) :
    s.setRunning r = s.withPorts { s.portC with busy := r } s.handled := by
  simp [State.setRunning, State.setPort, State.port, State.withPorts, hc]

/-- The last answer on port C says whether NONE was answered. -/
theorem State.answeredNone_withPorts (p : PortState) (rs : List Resp) (r : Resp) :
    (s.withPorts { p with out := rs ++ [r] } hs).answeredNone .c = (r.st == .none) := by
  simp [State.answeredNone, State.port, State.withPorts]

end

/-! ### One byte after another -/

/-- `n` bytes taken from the ring. -/
def State.takeBytes (s : State) : Nat → State
  | 0 => s
  | n + 1 => s.takeByte.1.takeBytes n

theorem State.takeBytes_withPorts (s : State) (x : PortState) (hs : List Snapshot) (n : Nat) :
    (s.withPorts x hs).takeBytes n = (s.takeBytes n).withPorts x hs := by
  induction n generalizing s with
  | zero => rfl
  | succ n ih => rw [State.takeBytes, s.takeByte_withPorts x hs]; exact ih s.takeByte.1

section

variable {s : State} {n : Nat}

/-- Of a ring that holds `n + 1` bytes, `n` are left after one is taken. -/
theorem State.takeByte_of_succ (hn : s.usedCount.toNat = n + 1) :
    s.isEmpty = false ∧ s.takeByte.1.usedCount.toNat = n := by
  obtain ⟨he, -⟩ := s.isEmpty_of_succ_le hn.ge
  have := State.usedCount_takeByte he
  exact ⟨he, by omega⟩

theorem State.isEmpty_takeBytes (hn : s.usedCount.toNat = n) : (s.takeBytes n).isEmpty = true := by
  induction n generalizing s with
  | zero => exact s.isEmpty_iff.2 hn
  | succ n ih => exact ih (State.takeByte_of_succ hn).2

/-- PROCESS on a ring that holds a byte takes it; only port C and the events show that it was PROCESS
(44_decode_adapter.md R192, R195). -/
theorem exec_process_withPorts (hc : s.cur = .c) (he : s.isEmpty = false) :
    ∃ hs, exec .process s = .next (s.takeByte.1.withPorts { s.portC with busy := some .process } hs) := by
  obtain ⟨fixed, -, -⟩ := s.takeByte_outside
  have run := exec_process_of_takeByte hc he (Prod.eta s.takeByte).symm
  generalize s.takeByte.1 = v at fixed run ⊢
  have hcur := fixed.cur.trans hc
  rw [← fixed.portC]
  cases hd : s.takeByte.2 <;> rw [hd] at run
  · exact ⟨_, run.trans (congrArg _ (State.setRunning_eq_withPorts hcur _))⟩
  · exact ⟨_, run.trans (congrArg _ (State.setRunning_eq_withPorts (s := v.emitHandle v.snapshot) hcur _))⟩
  · exact ⟨_, run.trans (congrArg _ (State.setRunning_eq_withPorts hcur _))⟩

/-- DECODE1 on a ring that holds a byte takes it and answers; nothing else shows that it was DECODE1
(44_decode_adapter.md R190). -/
theorem exec_decode1_withPorts (hc : s.cur = .c) (he : s.isEmpty = false) : exec .decode1 s =
    .next (s.takeByte.1.withPorts { s.portC with out := s.portC.out ++ [s.takeByte.2.answer] } s.handled) := by
  obtain ⟨fixed, -, handled⟩ := s.takeByte_outside
  rw [exec_decode1_of_takeByte hc he (Prod.eta s.takeByte).symm, State.respondAll_eq_withPorts (fixed.cur.trans hc),
    fixed.portC, handled]

/-- PROCESS with no producer activity takes all the bytes the ring holds, and then answers
(44_decode_adapter.md R192). -/
theorem execAll_process (hc : s.cur = .c) (hn : s.usedCount.toNat = n) :
    ∃ hs, execAll (List.replicate (n + 1) .process) s =
      .next ((s.takeBytes n).withPorts { s.portC with busy := none, out := s.portC.out ++ resp .ok 0 } hs) := by
  induction n generalizing s with
  | zero =>
    refine ⟨s.handled, (execAll_cons_of_next (exec_process_of_empty hc (s.isEmpty_iff.2 hn))).trans (congrArg _ ?_)⟩
    rw [State.respondAll_eq_withPorts (s := s.setRunning none) hc, State.setRunning_eq_withPorts hc]
    rfl
  | succ n ih =>
    obtain ⟨he, hn⟩ := State.takeByte_of_succ hn
    have hcur := s.takeByte_outside.1.cur.trans hc
    obtain ⟨gs, step⟩ := exec_process_withPorts hc he
    obtain ⟨hs, run⟩ := ih (s := s.takeByte.1.withPorts { s.portC with busy := some .process } gs) hcur hn
    refine ⟨hs, (execAll_cons_of_next step).trans (run.trans ?_)⟩
    rw [State.takeBytes_withPorts]
    rfl

/-- DECODE1 with no producer activity takes all the bytes the ring holds, answering each, before it answers NONE
(44_decode_adapter.md R190, 30_encoding.md R84). -/
theorem drain_decode1 (hc : s.cur = .c) (hn : s.usedCount.toNat = n) :
    ∃ rs u, u = (s.takeBytes n).withPorts { s.portC with out := s.portC.out ++ rs ++ resp .none 0 } s.handled ∧
      rs.length = n ∧ (∀ x ∈ rs, x.st ≠ .none) ∧ execAll (List.replicate (n + 1) .decode1) s = .next u ∧
      repeatUntilNone .c (fun s => some (exec .decode1 s)) (n + 1) s = some (.next u) := by
  induction n generalizing s with
  | zero =>
    have step := exec_decode1_of_empty hc (s.isEmpty_iff.2 hn)
    rw [State.respond, State.respondAll_eq_withPorts hc] at step
    refine ⟨[], _, rfl, rfl, nofun, ?_, ?_⟩
    · rw [List.append_nil]
      exact execAll_cons_of_next step
    · rw [repeatUntilNone, step, List.append_nil]
      exact if_pos (s.answeredNone_withPorts _ _ _ _)
  | succ n ih =>
    obtain ⟨he, hn⟩ := State.takeByte_of_succ hn
    have hcur := s.takeByte_outside.1.cur.trans hc
    have step := exec_decode1_withPorts hc he
    obtain ⟨rs, u, hu, hlen, hrs, run, drained⟩ := ih
      (s := s.takeByte.1.withPorts { s.portC with out := s.portC.out ++ [s.takeByte.2.answer] } s.handled) hcur hn
    refine ⟨s.takeByte.2.answer :: rs, u, ?_, congrArg (· + 1) hlen, ?_, (execAll_cons_of_next step).trans run, ?_⟩
    · rw [hu, State.takeBytes_withPorts, List.append_cons s.portC.out _ rs]
      rfl
    · exact List.forall_mem_cons.2 ⟨s.takeByte.2.answer_ne_none, hrs⟩
    · rw [repeatUntilNone, step]
      dsimp only
      rw [State.answeredNone_withPorts, beq_false_of_ne s.takeByte.2.answer_ne_none]
      exact drained

end

/-- Settles O57: both take the same bytes, and leave the same block but for port C's answers and the events. -/
theorem processEqualsDrain : Obligations.ProcessEqualsDrain := by
  unfold Obligations.ProcessEqualsDrain
  intro s _ hc hb
  obtain ⟨hs, processed⟩ := execAll_process hc rfl
  obtain ⟨rs, u, rfl, hlen, hrs, decoded, drained⟩ := drain_decode1 hc rfl
  obtain ⟨ring, crc, frame, session, parser, busy, outside⟩ :=
    (s.takeBytes s.usedCount.toNat).withPorts_same
      (x := { s.portC with out := s.portC.out ++ rs ++ resp .none 0 })
      (y := { s.portC with busy := none, out := s.portC.out ++ resp .ok 0 }) s.handled hs rfl hb.symm
  refine ⟨_, _, processed, ?_, decoded, ring, crc, frame, session, parser, busy, outside,
    State.isEmpty_iff_eq.1 (State.isEmpty_takeBytes rfl), rfl, ⟨rs, rfl, hlen, hrs⟩, rfl⟩
  rw [pseudoDrain, hc]
  exact drained

end Sys2Proof.Machine
end

section
/-! PROOFS. Register and buffer access (45_register_access.md R200 to R204): the register numbers, what each command does
on its port, and the statements about them. -/

namespace Sys2Proof.Machine

/-! ### The register numbers (10_state.md R24, R30) -/

/-- The Frame registers in the order of their numbers (10_state.md R24). -/
def FReg.all : List FReg := [.mark, .calcFlag, .seq, .sys, .dev, .tag, .len, .cklo, .ckhi, .resv0, .resv1, .resv2]

/-- The session, ring and configuration registers in the order of their numbers (10_state.md R30). -/
def SReg.all : List SReg :=
  [.localSys, .localDev, .lastSeqRx, .lastSeqTx, .errorCount, .validCount, .pstate, .byteCnt, .rbCap, .vcap, .profile,
    .lenMode, .rbHead, .rbTail]

theorem fregOf_eq_getElem? (a : Byte) : fregOf a = FReg.all[a.toNat]? := by
  unfold fregOf
  match a.toNat with
  | 0 | 1 | 2 | 3 | 4 | 5 | 6 | 7 | 8 | 9 | 10 | 11 | _ + 12 => rfl

theorem sregOf_eq_getElem? (a : Byte) : sregOf a = SReg.all[a.toNat]? := by
  unfold sregOf
  match a.toNat with
  | 0 | 1 | 2 | 3 | 4 | 5 | 6 | 7 | 8 | 9 | 10 | 11 | 12 | 13 | _ + 14 => rfl

theorem fregOf_eq_none {a : Byte} (h : 11 < a.toNat) : fregOf a = none :=
  (fregOf_eq_getElem? a).trans (List.getElem?_eq_none h)

theorem sregOf_eq_none {a : Byte} (h : 13 < a.toNat) : sregOf a = none :=
  (sregOf_eq_getElem? a).trans (List.getElem?_eq_none h)

/-- Only number 6 is `F.LEN` (10_state.md R24). -/
theorem eq_six_of_fregOf_len {a : Byte} (h : fregOf a = some .len) : a = 6 := by
  unfold fregOf at h
  split at h
  case h_7 ha => exact byte_eq_of_toNat ha
  all_goals cases h

/-- What a session register reads as, by its number (10_state.md R30, 45_register_access.md R204). -/
theorem exists_sregOf_of_getElem? {s : State} {a : Byte} {d : Word} (h : (SReg.all.map s.sget)[a.toNat]? = some d) :
    ∃ r, sregOf a = some r ∧ s.sget r = d := by
  rwa [List.getElem?_map, ← sregOf_eq_getElem?, Option.map_eq_some_iff] at h

/-! ### WRF's must-be-zero half (30_encoding.md R72, 45_register_access.md R201) -/

theorem decode_wrf_of_highByte_ne {a : Byte} {imm : Half} (h : imm.extractLsb' 8 8 ≠ 0) :
    decode [beatOf 0x61 a imm] = .illegal .mustBeZero [] := by
  have bare : payloadBeats (beatOf 0x61 a imm) = 0 := by simp [payloadBeats]
  rw [decode_illegal_iff, bare, decodeHeader, opOf_beatOf, aOf_beatOf, immOf_beatOf]
  exact ⟨Nat.zero_le _, if_neg h, rfl⟩

/-! ### What each command does on its port -/

section

variable {s : State} {a : Byte} {i : Half}

theorem exec_rdf_of_none (hc : s.cur = .c) (hr : fregOf a = none) :
    exec (.rdf a) s = .next (s.illegal .indexOutOfRange) := by
  rw [exec, execRdf, State.onlyC_c hc, hr]

theorem exec_rdf_of_some {r : FReg} (hc : s.cur = .c) (hr : fregOf a = some r) :
    exec (.rdf a) s = .next (s.respond .ok (s.frame.get r).word) := by
  rw [exec, execRdf, State.onlyC_c hc, hr]

theorem exec_wrf_of_none (hc : s.cur = .c) (hr : fregOf a = none) (v : Byte) :
    exec (.wrf a v) s = .next (s.illegal .indexOutOfRange) := by
  rw [exec, execWrf, State.onlyC_c hc, hr]

theorem exec_wrf_of_collecting (hc : s.cur = .c) (hr : fregOf a = some .len) (hp : s.pstate = .awaitValue) (v : Byte) :
    exec (.wrf a v) s = .next (s.illegal .lenWriteWhileCollecting) := by
  rw [exec, execWrf, State.onlyC_c hc, hr]
  exact congrArg _ (if_pos ⟨rfl, hp⟩)

theorem exec_wrf_of_some {r : FReg} (hc : s.cur = .c) (hr : fregOf a = some r)
    (hl : ¬ (r = .len ∧ s.pstate = .awaitValue)) (v : Byte) :
    exec (.wrf a v) s = .next ((s.setF r v).respondAll (resp .ok 0)) := by
  rw [exec, execWrf, State.onlyC_c hc, hr]
  exact congrArg _ (if_neg hl)

theorem exec_rdv_of_out (hc : s.cur = .c) (hi : s.cfg.vcap ≤ i.toNat) :
    exec (.rdv i) s = .next (s.illegal .indexOutOfRange) := by
  rw [exec, execRdv, State.onlyC_c hc, if_neg hi.not_gt]

theorem exec_rdv_of_lt (hc : s.cur = .c) (hi : i.toNat < s.cfg.vcap) :
    exec (.rdv i) s = .next (s.respond .ok (s.valRead i.toNat).word) := by
  rw [exec, execRdv, State.onlyC_c hc, if_pos hi]

theorem exec_wrv_of_out (hc : s.cur = .c) (hi : s.cfg.vcap ≤ i.toNat) (b : Byte) :
    exec (.wrv b i) s = .next (s.illegal .indexOutOfRange) := by
  rw [exec, execWrv, State.onlyC_c hc, if_neg hi.not_gt]

theorem exec_wrv_of_lt (hc : s.cur = .c) (hi : i.toNat < s.cfg.vcap) (b : Byte) :
    exec (.wrv b i) s = .next ((s.valWrite i.toNat b).respondAll (resp .ok 0)) := by
  rw [exec, execWrv, State.onlyC_c hc, if_pos hi]
  rfl

theorem exec_rds_of_none (hr : sregOf a = none) : exec (.rds a) s = .next (s.illegal .indexOutOfRange) := by
  rw [exec, execRds, hr]

theorem exec_rds_of_some {r : SReg} (hr : sregOf a = some r) :
    exec (.rds a) s = .next (s.respond .ok (s.sget r)) := by
  rw [exec, execRds, hr]

end

/-! ### The statements -/

/-- Settles O58: a number names one register at most, only 6 names `F.LEN`, and a write is one register's. -/
theorem frameRegistersReadAndWrite : Obligations.FrameRegistersReadAndWrite := by
  unfold Obligations.FrameRegistersReadAndWrite
  refine fun a v s => ⟨rfl, rfl, fun _ => decode_wrf_of_highByte_ne, fun hc => ⟨fun ha => ?_, ?_, fun r hr => ?_⟩⟩
  · have unnamed := fregOf_eq_none ha
    exact ⟨⟨_, exec_rdf_of_none hc unnamed, s.illegal_onlyAnswers _⟩,
      ⟨_, exec_wrf_of_none hc unnamed v, s.illegal_onlyAnswers _⟩⟩
  · rintro rfl hp
    exact ⟨_, exec_wrf_of_collecting hc rfl hp v, s.illegal_onlyAnswers _⟩
  · have named : fregOf a = some r := (fregOf_eq_getElem? a).trans hr
    refine ⟨⟨_, exec_rdf_of_some hc named, s.respond_onlyAnswers _ _⟩, fun hl => ?_⟩
    have free : ¬ (r = .len ∧ s.pstate = .awaitValue) := fun ⟨h, hp⟩ => hl ⟨eq_six_of_fregOf_len (h ▸ named), hp⟩
    exact ⟨_, exec_wrf_of_some hc named free v, ⟨s.frame.get_set_self r v, fun _ => s.frame.get_set_ne v⟩, fun _ => rfl,
      ⟨rfl, rfl, rfl, rfl⟩, ⟨rfl, rfl⟩, State.respondAll_of_link_change _⟩

/-- Settles O59: an index at or past `VCAP` is refused, and below it a write is one cell's. -/
theorem valueBufferReadsAndWrites : Obligations.ValueBufferReadsAndWrites := by
  unfold Obligations.ValueBufferReadsAndWrites
  refine fun i b s => ⟨rfl, rfl, fun hc => ⟨fun hi => ?_, fun hi => ?_⟩⟩
  · exact ⟨⟨_, exec_rdv_of_out hc hi, s.illegal_onlyAnswers _⟩, ⟨_, exec_wrv_of_out hc hi b, s.illegal_onlyAnswers _⟩⟩
  · refine ⟨⟨_, exec_rdv_of_lt hc hi, s.respond_onlyAnswers _ _⟩, _, exec_wrv_of_lt hc hi b, rfl, ?_, fun a ha => ?_,
      ⟨rfl, rfl, rfl, rfl⟩, ⟨rfl, rfl⟩, State.respondAll_of_link_change _⟩
    · exact (s.valRead_valWrite _ _ b).trans (if_pos rfl)
    · exact (s.valRead_valWrite _ a b).trans (if_neg ha)

/-- Settles O60: the values listed are those of the registers in the order of their numbers, on either port. -/
theorem sessionRegistersAreReadable : Obligations.SessionRegistersAreReadable := by
  unfold Obligations.SessionRegistersAreReadable
  refine fun a s => ⟨rfl, fun ha => ?_, fun d hd => ?_⟩
  · exact ⟨_, exec_rds_of_none (sregOf_eq_none ha), s.illegal_onlyAnswers _⟩
  · obtain ⟨r, named, rfl⟩ := exists_sregOf_of_getElem? (s := s) hd
    exact ⟨_, exec_rds_of_some named, s.respond_onlyAnswers _ _⟩

end Sys2Proof.Machine
end

section
/-! PROOFS. Which part of the state each port writes (20_memory.md R62, 60_exceptions.md R240), and who emits HANDLE events
(44_decode_adapter.md R195, 60_exceptions.md R230). -/

namespace Sys2Proof.Machine

section

variable {i : Instr} {s t u : State}

/-! ### Each port writes only its own state -/

theorem SameFixed.port (h : SameFixed s u) (q : Port) : u.port q = s.port q := by
  cases q
  exacts [h.portP, h.portC]

/-- However a command ends, the other port is left alone (20_memory.md R62). -/
theorem Effect.port_other (e : Effect i s t) : t.port s.cur.other = s.port s.cur.other := by
  cases e with
  | answer u rs k =>
    rw [← k.fixed.port, ← k.fixed.cur]
    exact u.port_setPort_other _ _
  | finish u rs k =>
    rw [← k.fixed.port, ← k.fixed.cur]
    exact u.port_finish_other rs
  | goOn u r k _ =>
    rw [← k.fixed.port, ← k.fixed.cur]
    exact u.port_setPort_other _ _

/-- On port P a command changes nothing or pushes one byte (40_ring_buffer.md R101, R104). -/
theorem Change.of_port_p (k : Change i s u) (hp : s.cur = .p) : u = s ∨ ∃ b, u = s.pushByte b := by
  cases k
  case none => exact .inl rfl
  case push b _ _ => exact .inr ⟨b, rfl⟩
  case pushall b _ _ => exact .inr ⟨b, rfl⟩
  all_goals exact absurd (hp.symm.trans ‹s.cur = .c›) nofun

theorem SameCells.rb_tail (h : SameCells s u) : u.rb = s.rb ∧ u.tail = s.tail := ⟨h.1, h.2.2⟩

/-- On port C no command but FLUSH changes RB or TAIL: it may pop, and that moves HEAD alone (40_ring_buffer.md R102). -/
theorem Change.rb_tail_of_port_c (k : Change i s u) (hc : s.cur = .c) (hi : i ≠ .flush) :
    u.rb = s.rb ∧ u.tail = s.tail := by
  have popped : SameCells s.advanceHead (s.advanceHead.parse (s.rbRead (s.phys s.head))).1 :=
    (State.parse_outside _ _).cells
  cases k
  case push hp _ => exact absurd (hp.symm.trans hc) nofun
  case pushall hp _ => exact absurd (hp.symm.trans hc) nofun
  case flush => exact absurd rfl hi
  case step b _ => exact (s.parse_outside b).cells.rb_tail
  case verify => exact s.judge_cells.rb_tail
  case decode1 => exact popped.rb_tail
  case decode1Complete => exact (popped.trans (State.verifyCompleted_cells _)).rb_tail
  case process => exact popped.rb_tail
  case processInvalid => exact (popped.trans (State.verifyCompleted_cells _)).rb_tail
  case processValid v _ _ _ hx =>
    rw [hx] at popped
    exact popped.rb_tail
  all_goals exact ⟨rfl, rfl⟩

/-! ### Only PROCESS emits events -/

theorem State.judge_handled (s : State) : s.judge.1.handled = s.handled := by
  rcases s.judge_fst with h | h <;> rw [h] <;> rfl

theorem State.verifyCompleted_handled (s : State) : s.verifyCompleted.1.handled = s.handled := by
  rcases s.verifyCompleted_fst with h | h <;> rw [h] <;> rfl

/-- The events change only where PROCESS takes the byte that completes a valid frame (44_decode_adapter.md R195). -/
theorem Change.handled_cases (k : Change i s u) :
    u.handled = s.handled ∨
    (i = .process ∧ ∃ v, s.advanceHead.parse (s.rbRead (s.phys s.head)) = (v, .complete) ∧
      v.verifyCompleted = (v.countValid, .valid) ∧ u = v.countValid.emitHandle v.countValid.snapshot) := by
  have parsed : (s.advanceHead.parse (s.rbRead (s.phys s.head))).1.handled = s.handled :=
    (State.parse_outside _ _).handled
  cases k
  case step b _ => exact .inl (s.parse_outside b).handled
  case verify => exact .inl s.judge_handled
  case decode1 => exact .inl parsed
  case decode1Complete => exact .inl ((State.verifyCompleted_handled _).trans parsed)
  case process => exact .inl parsed
  case processInvalid => exact .inl ((State.verifyCompleted_handled _).trans parsed)
  case processValid v hv _ _ hx => exact .inr ⟨rfl, v, hx, hv, rfl⟩
  all_goals exact .inl rfl

/-- A completed frame that verifies fits the value buffer: under PKT it could not complete otherwise, and under TRAILER
and HEADER `verify()` tests its length (10_state.md R28; log 13). -/
theorem State.len_le_of_complete_valid {b : Byte} {v w : State} (hx : s.parse b = (v, .complete))
    (hv : v.verifyCompleted = (w, .valid)) : v.frame.len.toNat ≤ s.cfg.vcap := by
  have outside := s.parse_outside b
  have fits := completedHeaderAndPktFramesFit s b
  rw [hx] at outside fits
  rcases v.verifyCompleted_cases with ⟨-, pkt | ⟨hl, -⟩⟩ | ⟨e, -⟩
  · exact fits (by rw [← outside.cfg, pkt]; nofun) rfl
  · rw [← outside.cfg]
    exact v.lenFits_iff.1 hl
  · cases hv.symm.trans e

end

/-! ### The statements -/

/-- Settles O29: on P a command pushes a byte at most, on C it leaves RB and TAIL, and neither port touches the other. -/
theorem eachPortWritesOnlyItsOwnState : Obligations.EachPortWritesOnlyItsOwnState := by
  unfold Obligations.EachPortWritesOnlyItsOwnState
  intro i s t h
  have other := (exec_effect h).port_other
  obtain ⟨u, p, c, k, rfl⟩ := (exec_effect h).change
  constructor
  · intro hp
    rw [hp] at other
    rcases k.of_port_p hp with rfl | ⟨b, rfl⟩ <;>
      exact ⟨rfl, rfl, ⟨rfl, fun _ => rfl⟩, ⟨rfl, rfl, rfl, rfl⟩, ⟨rfl, rfl⟩, rfl, other⟩
  · intro hc hi
    rw [hc] at other
    obtain ⟨rb, tail⟩ := k.rb_tail_of_port_c hc hi
    exact ⟨tail, fun a => by simp only [State.rbRead, rb, k.fixed.epoch], other⟩

/-- Settles O56: the one change of the events is PROCESS handing over the frame it has just counted. -/
theorem onlyProcessEmitsEvents : Obligations.OnlyProcessEmitsEvents := by
  unfold Obligations.OnlyProcessEmitsEvents
  intro i s t h
  obtain ⟨u, p, c, k, rfl⟩ := (exec_effect h).change
  rcases k.handled_cases with same | ⟨hi, v, hx, hv, rfl⟩
  · exact .inl same
  · have outside := s.advanceHead.parse_outside (s.rbRead (s.phys s.head))
    rw [hx] at outside
    have fits := State.len_le_of_complete_valid hx hv
    exact .inr ⟨hi, congrArg (· + 1) outside.validCount, fits,
      congrArg (· ++ [v.countValid.snapshot]) outside.handled⟩

end Sys2Proof.Machine
end

section
/-! PROOFS. 70_reset_and_hazards.md R250 and R251: what construction leaves, and construction applied again, which needs
both ports idle. -/

namespace Sys2Proof.Machine

/-! ### Construction (70_reset_and_hazards.md R250) -/

/-- Accepted parameters become an instance at construction number 0. -/
theorem construct_of_checkParams {q : Params} {cfg : Cfg} (h : checkParams q = .ok cfg) :
    construct q = .ok (State.constructed cfg 0) := by
  rw [construct, h]

/-- Settles O1: the constructed state holds the reset values, under the configuration of those very parameters. -/
theorem constructionLeavesResetState : Obligations.ConstructionLeavesResetState := by
  unfold Obligations.ConstructionLeavesResetState
  intro q cfg h
  have hparams : cfg.params = q := params_of_checkParams h
  exact ⟨State.constructed cfg 0, construct_of_checkParams h, rfl, hparams,
    rfl, rfl, rfl, rfl, rfl, rfl, rfl, rfl, rfl, rfl, rfl, rfl, rfl, rfl⟩

/-! ### Construction applied again (70_reset_and_hazards.md R251) -/

theorem State.idle_iff_port_free {s : State} : s.idle = true ↔ ∀ q, (s.port q).free = true := by
  rw [State.idle_iff]
  constructor
  · rintro ⟨hp, hc⟩ (_ | _)
    · exact hp
    · exact hc
  · exact fun h => ⟨h .p, h .c⟩

/-- A port with a bulk command in execution or beats not taken is not free. -/
theorem PortState.not_free {x : PortState} (h : x.busy ≠ none ∨ x.inbox ≠ []) : ¬ x.free = true := by
  rw [PortState.free_iff, not_and_or]
  exact h

/-- Construction again leaves a port idle, with the answers it has already given. -/
@[simp] theorem State.rebuild_port (s : State) (q : Port) :
    s.rebuild.port q = { PortState.idle with out := (s.port q).out } := by
  cases q <;> rfl

theorem step_of_reset_idle {s : State} (hr : s.resetReq = true) (hi : s.idle = true) : step s = .next s.rebuild := by
  rw [step, State.advance, if_pos hr, if_pos hi]

theorem step_of_reset_not_idle {s : State} (hr : s.resetReq = true) (hi : ¬ s.idle = true) :
    step s = .fault .resetWhileBusy := by
  rw [step, State.advance, if_pos hr, if_neg hi]

/-- Settles O9: with both ports free the step constructs the block again; a port that is not free makes it fault. -/
theorem resetAppliedAgainReconstructs : Obligations.ResetAppliedAgainReconstructs := by
  unfold Obligations.ResetAppliedAgainReconstructs
  intro s hr
  constructor
  · intro hfree
    have hidle : s.idle = true := State.idle_iff_port_free.2 fun q => PortState.free_iff.2 (hfree q)
    have hports : ∀ q, (s.rebuild.port q).busy = none ∧ (s.rebuild.port q).inbox = [] ∧
        (s.rebuild.port q).out = (s.port q).out := fun q => by
      rw [s.rebuild_port q]
      exact ⟨rfl, rfl, rfl⟩
    exact ⟨s.rebuild, step_of_reset_idle hr hidle, s.rebuild_cfg,
      rfl, rfl, rfl, rfl, rfl, rfl, rfl, rfl, rfl, rfl, rfl, rfl, hports⟩
  · intro q hbusy
    have hnot : ¬ s.idle = true := fun hi => PortState.not_free hbusy (State.idle_iff_port_free.1 hi q)
    exact step_of_reset_not_idle hr hnot

end Sys2Proof.Machine
end
